-- ==== Sys2Proof/Word.lean ====
section
/-! DEFINITION. The word types of PNGDF: the byte of BUF, the 32-bit register word, the register port's word index. -/

namespace Sys2Proof

/-- One byte of BUF, an unsigned 8-bit value (10_state.md R50). -/
abbrev Byte := BitVec 8

/-- One register-port word, and a BUF address at the host's port (10_state.md R25, 20_memory.md R60). -/
abbrev Word := BitVec 32

/-- The register port's word index: byte offset 0x00 to 0xFC divided by 4. The port carries no offset
bits [1:0] (20_memory.md R66), so a misaligned offset cannot be written down. -/
abbrev RegIndex := BitVec 6

end Sys2Proof
end

