-- ==== Sys2Proof/Syntax.lean ====
section
/-! DEFINITION. The encoded operations of PNGDF, one constructor per row of spec/opcode_table.json (30_encoding.md R80,
R83, R84). No form has an operand field (R85): every operand is implicit. -/

namespace Sys2Proof

/-- The nine encoded operations. -/
inductive Instr where
  /-- Row opcode 0x00, filter None (40_defilter.md R103). -/
  | none
  /-- Row opcode 0x01, filter Sub (R104). -/
  | sub
  /-- Row opcode 0x02, filter Up (R105). -/
  | up
  /-- Row opcode 0x03, filter Average (R106). -/
  | avg
  /-- Row opcode 0x04, filter Paeth (R107). -/
  | paeth
  /-- Command word 0x00000000 (42_commands.md R167). -/
  | nop
  /-- Command word 0x00000001 (R168). -/
  | defilter
  /-- Command word 0x00000002 (R169). -/
  | flip
  /-- Command word 0x00000003 (R171). -/
  | convert
  deriving DecidableEq, Repr

end Sys2Proof
end

