-- ==== Sys2Proof/WellFormed.lean ====
section
/-! DEFINITION. Which instruction may stand in which of the two encoded forms (30_encoding.md R80). An instruction has no
operand, so its form is the one thing that can be ill-formed about it. -/

namespace Sys2Proof

/-- The two encoded forms: the row opcode byte and the host command word (30_encoding.md R80). -/
inductive Form where
  /-- Format FT: one byte, read from BUF at DF_HDR. -/
  | ft
  /-- Format CMD: one 32-bit word, written to register CMD. -/
  | cmd
  deriving DecidableEq, Repr

/-- The form an instruction is encoded in (the "format" of its opcode-table row). -/
def Instr.form : Instr → Form
  | .none => .ft
  | .sub => .ft
  | .up => .ft
  | .avg => .ft
  | .paeth => .ft
  | .nop => .cmd
  | .defilter => .cmd
  | .flip => .cmd
  | .convert => .cmd

/-- `i` is well-formed as an operation of form `f`: a row opcode heads a row, a command is written to CMD. -/
def Instr.wellFormedIn (f : Form) (i : Instr) : Bool := i.form == f

end Sys2Proof
end

