-- ==== Sys2Proof/Decode.lean ====
section
/-! DEFINITION. The decoder, total on every byte and every word and rejecting by name, and after it the encoder
(30_encoding.md R80 to R84, R86). -/

namespace Sys2Proof

/-- What is decoded: a row opcode byte or a command word (30_encoding.md R80). -/
inductive Code where
  | ft (t : Byte)
  | cmd (w : Word)
  deriving DecidableEq, Repr

/-- Why a code is no instruction. -/
inductive DecodeError where
  /-- A row opcode byte 0x05 to 0xFF (30_encoding.md R86): InvalidFilterType. -/
  | invalidFilterType (t : Byte)
  /-- A command word other than 0 to 3 (42_commands.md R162): IllegalCommand. -/
  | illegalCommand (w : Word)
  deriving DecidableEq, Repr

/-- The form of a code. -/
def Code.form : Code → Form
  | .ft _ => .ft
  | .cmd _ => .cmd

/-- The row opcode map: the whole byte is the field FTYPE (30_encoding.md R82, R83, R86). -/
def decodeRow (t : Byte) : Except DecodeError Instr :=
  if t = 0x00#8 then .ok .none
  else if t = 0x01#8 then .ok .sub
  else if t = 0x02#8 then .ok .up
  else if t = 0x03#8 then .ok .avg
  else if t = 0x04#8 then .ok .paeth
  else .error (.invalidFilterType t)

/-- The command map: RSV, bits [31:4], must be 0 and OP, bits [3:0], must be 0 to 3 (30_encoding.md R84). -/
def decodeCommand (w : Word) : Except DecodeError Instr :=
  let op := w.extractLsb' 0 4
  let rsv := w.extractLsb' 4 28
  if rsv ≠ 0#28 then .error (.illegalCommand w)
  else if op = 0#4 then .ok .nop
  else if op = 1#4 then .ok .defilter
  else if op = 2#4 then .ok .flip
  else if op = 3#4 then .ok .convert
  else .error (.illegalCommand w)

/-- The decoder over both forms. -/
def decode : Code → Except DecodeError Instr
  | .ft t => decodeRow t
  | .cmd w => decodeCommand w

/-- The code of an instruction (30_encoding.md R83, R84). -/
def encode : Instr → Code
  | .none => .ft 0x00#8
  | .sub => .ft 0x01#8
  | .up => .ft 0x02#8
  | .avg => .ft 0x03#8
  | .paeth => .ft 0x04#8
  | .nop => .cmd 0x00000000#32
  | .defilter => .cmd 0x00000001#32
  | .flip => .cmd 0x00000002#32
  | .convert => .cmd 0x00000003#32

/-- The code that `nbits` bits `w` of an opcode-table row stand for: 8 bits are a row opcode, 32 bits a command word. The
two forms overlap in value and are told apart by where they stand (30_encoding.md R80), which the row's width says here. -/
def codeOfTable (nbits w : Nat) : Option Code :=
  if nbits = 8 ∧ w < 2 ^ 8 then some (.ft (BitVec.ofNat 8 w))
  else if nbits = 32 ∧ w < 2 ^ 32 then some (.cmd (BitVec.ofNat 32 w))
  else Option.none

/-- The instruction the decoder reads from an opcode-table row's bits. -/
def decodeTableWord (nbits w : Nat) : Option Instr :=
  match codeOfTable nbits w with
  | some c =>
    match decode c with
    | .ok i => some i
    | .error _ => Option.none
  | Option.none => Option.none

end Sys2Proof
end

