-- ==== Sys2Proof/Config.lean ====
section
/-! DEFINITION. What an implementation or platform fixes: the fixed parameters (00_scope.md R8), the open
parameters MEM_SIZE and REG_BASE (R9), the hardwired register constants, and the free values (`draw`, R12). -/

namespace Sys2Proof

/-- BPP, bytes per pixel (00_scope.md R8). -/
def Config.bpp : Nat := 4

/-- The constant of the ID register, "PNGD" (10_state.md R27). -/
def Config.idValue : Word := 0x504E4744#32

/-- MASK_R (10_state.md R46). -/
def Config.maskR : Word := 0x000000FF#32
/-- MASK_G (10_state.md R46). -/
def Config.maskG : Word := 0x0000FF00#32
/-- MASK_B (10_state.md R46). -/
def Config.maskB : Word := 0x00FF0000#32
/-- MASK_A (10_state.md R46). -/
def Config.maskA : Word := 0xFF000000#32

/-- ERR_OFFSET's "not known" (10_state.md R32). -/
def Config.offsetUnknown : Word := 0xFFFFFFFF#32

/-- A FREE VALUE, no body: the byte that draw number `n` gives BUF address `a` (00_scope.md R12 "draw", 10_state.md R49,
60_exceptions.md R203, 70_reset_and_hazards.md R230). Log entry 2. -/
opaque Config.draw : Nat → Nat → Byte

/-- A platform's choice, no body: MEM_SIZE less one, so that 1 ≤ MEM_SIZE ≤ 2^32 holds whatever it is
(00_scope.md R9). Log entry 3. -/
opaque Config.memSizeLessOne : Word

/-- A platform's choice, no body: REG_BASE (20_memory.md R65). Log entry 3. -/
opaque Config.regBase : Nat

/-- The open parameters (00_scope.md R9). State carries them, so that a statement about every state is a statement
about every platform; no step changes them. -/
structure Params where
  /-- MEM_SIZE, the bytes of BUF. -/
  memSize : Nat
  /-- REG_BASE, the platform address of register offset 0x00. -/
  regBase : Nat
  deriving DecidableEq, Repr

/-- The platform's parameters at reset: unknown but within R9's bounds. -/
def Config.params : Params :=
  { memSize := Config.memSizeLessOne.toNat + 1, regBase := Config.regBase }

/-- The platform address of a register word (20_memory.md R65). No rule of the block depends on it. -/
def Params.regAddress (p : Params) (i : RegIndex) : Nat := p.regBase + 4 * i.toNat

end Sys2Proof
end

