-- ==== Sys2Proof/Machine/State.lean ====
section
/-! DEFINITION. The machine's state as plain data, the reasons a step can stop, and the state after reset
(10_state.md, 70_reset_and_hazards.md R230). -/

namespace Sys2Proof.Machine

/-- The five PNG reconstruction filters, the values of the latch FT (10_state.md R23, 40_defilter.md R100). -/
inductive FilterType where
  | none
  | sub
  | up
  | avg
  | paeth
  deriving DecidableEq, Repr

/-- The commands that run the engine, the values of the latch OPL (10_state.md R23). -/
inductive Command where
  | defilter
  | flip
  | convert
  deriving DecidableEq, Repr

/-- The engine's sequencing state ES (10_state.md R22). The counters are unsigned and never wrap. -/
inductive EngineState where
  /-- No command is running. -/
  | idle
  /-- Next, the engine reads the filter-type byte of row `r`. -/
  | dfHdr (r : Nat)
  /-- Next, the engine reconstructs data byte `col` of row `r`. -/
  | dfByte (r col : Nat)
  /-- Next, the engine copies byte `k` of source row `i`. -/
  | flByte (i k : Nat)
  deriving DecidableEq, Repr

/-- The codes ERR_CODE can hold (10_state.md R31, 60_exceptions.md R200); codes 6 to 15 are never written. -/
inductive ErrCode where
  | none
  | invalidFilterType
  | sizeMismatch
  | unsupportedFormat
  | configError
  | illegalCommand
  deriving DecidableEq, Repr

/-- WIDTH, HEIGHT, IN_BASE, RAW_BASE and OUT_BASE, as registers or as the latch GEOM (10_state.md R23). -/
structure Geom where
  width : Word
  height : Word
  inBase : Word
  rawBase : Word
  outBase : Word
  deriving DecidableEq, Repr

/-- FORMAT's four bytes (10_state.md R37). -/
structure Format where
  bitDepth : Byte
  colorType : Byte
  compression : Byte
  filterMethod : Byte
  deriving DecidableEq, Repr

/-- The 22 registers of the map (10_state.md R26). -/
inductive Reg where
  | id
  | cmd
  | status
  | errCode
  | errOffset
  | errInfo
  | intEn
  | width
  | height
  | format
  | interlace
  | inBase
  | inLen
  | rawBase
  | outBase
  | bpp
  | inSize
  | rawSize
  | maskR
  | maskG
  | maskB
  | maskA
  deriving DecidableEq, Repr

/-- One access of the host (10_state.md R21, R25; 20_memory.md R62; 60_exceptions.md R210). -/
inductive HostOp where
  /-- A register read at word index `i`. -/
  | regRead (i : RegIndex)
  /-- A register write of `v` at word index `i`. -/
  | regWrite (i : RegIndex) (v : Word)
  /-- HostMemRead(a). -/
  | memRead (a : Word)
  /-- HostMemWrite(a, v). -/
  | memWrite (a : Word) (v : Byte)
  /-- The host looks at the interrupt line. -/
  | irqSample
  deriving DecidableEq, Repr

/-- Who moves next, and with what: the block's inputs and the interleaving (10_state.md R21). Log entry 1. -/
inductive Input where
  /-- The host makes one access. -/
  | host (op : HostOp)
  /-- The engine takes one step. -/
  | engine
  /-- The reset input is asserted (70_reset_and_hazards.md R230). -/
  | resetAssert
  /-- The reset input is released. -/
  | resetRelease
  deriving DecidableEq, Repr

/-- The data an access returned to the host. -/
inductive Response where
  | reg (v : Word)
  | mem (v : Byte)
  | irq (level : Bool)
  deriving DecidableEq, Repr

/-- The ownership window an accepted command opens over its regions (70_reset_and_hazards.md R232). -/
structure Claim where
  /-- The accepted command. -/
  cmd : Command
  /-- Its geometry, which fixes its regions (20_memory.md R68). -/
  geom : Geom
  deriving DecidableEq, Repr

/-- The state of PNGDF and of its two ports. -/
structure State where
  /-- MEM_SIZE and REG_BASE (00_scope.md R9). -/
  params : Params
  /-- ES (10_state.md R22). -/
  es : EngineState
  /-- OPL (10_state.md R23). -/
  opl : Command
  /-- FT (10_state.md R23). -/
  ft : FilterType
  /-- GEOM (10_state.md R23). -/
  geom : Geom
  /-- STATUS.DONE (10_state.md R29). -/
  done : Bool
  /-- STATUS.ERROR (10_state.md R29). -/
  error : Bool
  /-- ERR_CODE.CODE (10_state.md R31). -/
  errCode : ErrCode
  /-- ERR_OFFSET (10_state.md R32). -/
  errOffset : Word
  /-- ERR_INFO (10_state.md R33). -/
  errInfo : Word
  /-- INT_EN.DONE_IE (10_state.md R34). -/
  doneIE : Bool
  /-- INT_EN.ERR_IE (10_state.md R34). -/
  errIE : Bool
  /-- WIDTH (10_state.md R35). -/
  width : Word
  /-- HEIGHT (10_state.md R36). -/
  height : Word
  /-- FORMAT (10_state.md R37). -/
  format : Format
  /-- INTERLACE.INTERLACE (10_state.md R38). -/
  interlace : Byte
  /-- IN_BASE (10_state.md R39). -/
  inBase : Word
  /-- IN_LEN (10_state.md R40). -/
  inLen : Word
  /-- RAW_BASE (10_state.md R41). -/
  rawBase : Word
  /-- OUT_BASE (10_state.md R42). -/
  outBase : Word
  /-- BUF (10_state.md R50): the bytes stored or drawn since reset, by rising address. An address with no entry holds
  the draw `Config.draw bufEpoch a`. Log entry 2. -/
  buf : List Host.Cell
  /-- The model's own: the number of the draw that unlisted BUF bytes stand for. Log entry 2. -/
  bufEpoch : Nat
  /-- The model's own: the next unused draw number. Log entry 2. -/
  draws : Nat
  /-- The open ownership window, that of the last accepted command (70_reset_and_hazards.md R232). Log entry 4. -/
  window : Option Claim
  /-- The reset input's level: true while asserted (70_reset_and_hazards.md R230). -/
  inReset : Bool
  /-- The model's own: the coming accesses and the interleaving (10_state.md R21). Log entry 1. -/
  inputs : List Input
  /-- The model's own: what the host's last access returned. Log entry 1. -/
  response : Option Response
  deriving DecidableEq, Repr

/-- The reasons a step faults. -/
inductive Fault where
  /-- Raised by an engine access to address `a` at or above MEM_SIZE, a byte that does not exist. SAFE: 20_memory.md R63
  says the engine never makes one, and only states no run reaches do. -/
  | engineOutsideBuf (a : Nat)
  deriving DecidableEq, Repr

/-- The reasons a step is refused. -/
inductive Refusal where
  /-- Raised by `exec` for an instruction that has no meaning yet. SAFE. No arm raises it. -/
  | notModelled (mnemonic : String)
  /-- Raised by the meaning of a row opcode where ES is neither DF_HDR nor DF_BYTE, so that no row is under way. SAFE: a
  step never runs a row opcode there. -/
  | noRowUnderWay
  /-- Raised by a host write to BUF address `a` inside a region a running (or not yet released) command uses. SAFE:
  70_reset_and_hazards.md R232, "A model refuses the run". -/
  | ownedWrite (a : Word)
  /-- Raised by a host read of BUF address `a` inside a region such a command writes. SAFE: the same rule. -/
  | ownedRead (a : Word)
  deriving DecidableEq, Repr

/-- The state after a reset that began draw number `epoch`, with the reset input at level `held`
(70_reset_and_hazards.md R230, 10_state.md R49). OPL, FT and GEOM hold named values that nothing reads while ES is
IDLE: DESIGN CHOICE, log entry 5. -/
def State.afterReset (p : Params) (epoch : Nat) (held : Bool) (inputs : List Input) : State :=
  { params := p
    es := .idle
    opl := .defilter
    ft := .none
    geom := { width := 0#32, height := 0#32, inBase := 0#32, rawBase := 0#32, outBase := 0#32 }
    done := false
    error := false
    errCode := .none
    errOffset := 0#32
    errInfo := 0#32
    doneIE := false
    errIE := false
    width := 0#32
    height := 0#32
    format := { bitDepth := 8#8, colorType := 6#8, compression := 0#8, filterMethod := 0#8 }
    interlace := 0#8
    inBase := 0#32
    inLen := 0#32
    rawBase := 0#32
    outBase := 0#32
    buf := []
    bufEpoch := epoch
    draws := epoch + 1
    window := Option.none
    inReset := held
    inputs := inputs
    response := Option.none }

/-- The machine right after reset: the input released, no host access waiting, every BUF byte a draw. -/
def State.reset : State := State.afterReset Config.params 0 false []

end Sys2Proof.Machine
end

