-- ==== Sys2Proof/Machine/Flags.lean ====
section
/-! DEFINITION. The status flags and every view of them: BUSY, PHASE, IRQ, the STATUS and INT_EN words (10_state.md R29,
R34, R48; 60_exceptions.md R210). PNGDF has no arithmetic flags (R48). -/

namespace Sys2Proof.Machine

/-- STATUS.BUSY: ES is not IDLE (10_state.md R29). -/
def State.busy (s : State) : Bool :=
  match s.es with
  | .idle => false
  | .dfHdr _ => true
  | .dfByte _ _ => true
  | .flByte _ _ => true

/-- STATUS.PHASE (10_state.md R29). -/
def State.phase (s : State) : Nat :=
  match s.es with
  | .idle => 0
  | .dfHdr _ => 1
  | .dfByte _ _ => 1
  | .flByte _ _ => 2

/-- The interrupt output (60_exceptions.md R210). -/
def State.irq (s : State) : Bool := (s.done && s.doneIE) || (s.error && s.errIE)

/-- One bit of a register word: `b` at bit `n`, every other bit 0. -/
def bitAt (n : Nat) (b : Bool) : Word := BitVec.ofNat 32 (b.toNat * 2 ^ n)

/-- The STATUS word (10_state.md R29). -/
def State.statusWord (s : State) : Word :=
  bitAt 0 s.busy ||| bitAt 1 s.done ||| bitAt 2 s.error ||| BitVec.ofNat 32 (s.phase * 2 ^ 4) ||| bitAt 8 s.irq

/-- The INT_EN word (10_state.md R34). -/
def State.intEnWord (s : State) : Word := bitAt 0 s.doneIE ||| bitAt 1 s.errIE

/-- A write of `v` to STATUS: DONE and ERROR are write-1-to-clear, nothing else changes (10_state.md R30). With ERROR set
this is the host's return from an error (60_exceptions.md R204). -/
def State.ackStatus (v : Word) (s : State) : State :=
  { s with done := s.done && !v.getLsbD 1, error := s.error && !v.getLsbD 2 }

/-- A write of `v` to INT_EN; bits [31:2] are reserved (10_state.md R34). -/
def State.setIntEn (v : Word) (s : State) : State :=
  { s with doneIE := v.getLsbD 0, errIE := v.getLsbD 1 }

/-- The number ERR_CODE holds for an error (60_exceptions.md R200). -/
def ErrCode.number : ErrCode → Nat
  | .none => 0
  | .invalidFilterType => 1
  | .sizeMismatch => 2
  | .unsupportedFormat => 3
  | .configError => 4
  | .illegalCommand => 5

end Sys2Proof.Machine
end

