-- ==== Sys2Proof/Machine/Ops.lean ====
section
/-! DEFINITION. The named operations over BUF, the geometry and the regions, and the shared ends of a command: taking an
error (60_exceptions.md R202, R203), completion (42_commands.md R170), reset (70_reset_and_hazards.md R230). -/

namespace Sys2Proof.Machine

/-! ## BUF -/

/-- The byte stored at an address, if any. -/
def Memory.lookup : List Host.Cell → Nat → Option Byte
  | [], _ => none
  | c :: m, a => if c.1 = a then some c.2 else Memory.lookup m a

/-- Store one byte, keeping the addresses rising. -/
def Memory.store : List Host.Cell → Nat → Byte → List Host.Cell
  | [], a, v => [(a, v)]
  | c :: m, a, v =>
    if a < c.1 then (a, v) :: c :: m
    else if a = c.1 then (a, v) :: m
    else c :: Memory.store m a v

/-- The canonical form: addresses strictly rising and below MEM_SIZE. What an unlisted address holds is no stored byte
but a draw, which no entry can equal (log entry 2). -/
abbrev Memory.wf (memSize : Nat) (m : List Host.Cell) : Prop :=
  m.Pairwise (fun c d => c.1 < d.1) ∧ ∀ c ∈ m, c.1 < memSize

/-- Give each of the `n` bytes from `base` that BUF has the value `draw` gives it. -/
def Memory.redraw (memSize : Nat) (draw : Nat → Byte) (base : Nat) : Nat → List Host.Cell → List Host.Cell
  | 0, m => m
  | n + 1, m =>
    let m' := Memory.redraw memSize draw base n m
    if base + n < memSize then Memory.store m' (base + n) (draw (base + n)) else m'

/-- What an address holds that nothing has stored to since reset: a draw (10_state.md R49, R50). -/
def State.unstored (s : State) (a : Nat) : Byte := Config.draw s.bufEpoch a

/-- BUF[a] (20_memory.md R60). -/
def State.bufByte (s : State) (a : Nat) : Byte := (Memory.lookup s.buf a).getD (s.unstored a)

/-- BUF[a] <- v. -/
def State.setBufByte (a : Nat) (v : Byte) (s : State) : State := { s with buf := Memory.store s.buf a v }

/-- MEM_SIZE. -/
abbrev State.memSize (s : State) : Nat := s.params.memSize

/-! ## Geometry (00_scope.md R10) and regions (20_memory.md R68) -/

/-- The geometry registers as they stand. -/
def State.regGeom (s : State) : Geom :=
  { width := s.width, height := s.height, inBase := s.inBase, rawBase := s.rawBase, outBase := s.outBase }

/-- R, the bytes per reconstructed row. -/
def Geom.rowBytes (g : Geom) : Nat := Config.bpp * g.width.toNat

/-- L, the bytes per filtered row. -/
def Geom.lineBytes (g : Geom) : Nat := 1 + g.rowBytes

/-- HEIGHT as a number. -/
def Geom.rows (g : Geom) : Nat := g.height.toNat

/-- IN_EXPECT, the length the filtered stream must have. -/
def Geom.inExpect (g : Geom) : Nat := g.rows * g.lineBytes

/-- RAW_BYTES, the length of the reconstructed and of the flipped buffer. -/
def Geom.rawBytes (g : Geom) : Nat := g.rows * g.rowBytes

/-- The address of row `r`'s filter-type byte. -/
def Geom.ftypeAddr (g : Geom) (r : Nat) : Nat := g.inBase.toNat + r * g.lineBytes

/-- The address of row `r`'s filtered data byte `col`. -/
def Geom.dataAddr (g : Geom) (r col : Nat) : Nat := g.inBase.toNat + r * g.lineBytes + 1 + col

/-- The address of reconstructed byte `col` of row `r`. -/
def Geom.rawAddr (g : Geom) (r col : Nat) : Nat := g.rawBase.toNat + r * g.rowBytes + col

/-- The address of byte `k` of output row `j`. -/
def Geom.outAddr (g : Geom) (j k : Nat) : Nat := g.outBase.toNat + j * g.rowBytes + k

/-- A half-open interval of BUF addresses. -/
structure Region where
  base : Nat
  size : Nat
  deriving DecidableEq, Repr

/-- The region holds the address. -/
def Region.has (q : Region) (a : Nat) : Bool := decide (q.base ≤ a) && decide (a < q.base + q.size)

/-- The region IN. -/
def Geom.inRegion (g : Geom) : Region := { base := g.inBase.toNat, size := g.inExpect }
/-- The region RAW. -/
def Geom.rawRegion (g : Geom) : Region := { base := g.rawBase.toNat, size := g.rawBytes }
/-- The region OUT. -/
def Geom.outRegion (g : Geom) : Region := { base := g.outBase.toNat, size := g.rawBytes }

/-- The regions a command reads (20_memory.md R68). -/
def Command.reads (g : Geom) : Command → List Region
  | .defilter => [g.inRegion, g.rawRegion]
  | .flip => [g.rawRegion]
  | .convert => [g.inRegion, g.rawRegion]

/-- The regions a command writes (20_memory.md R68). -/
def Command.writes (g : Geom) : Command → List Region
  | .defilter => [g.rawRegion]
  | .flip => [g.outRegion]
  | .convert => [g.rawRegion, g.outRegion]

/-- The address lies in a region the command writes. -/
def Command.writesAt (c : Command) (g : Geom) (a : Nat) : Bool := (c.writes g).any (·.has a)

/-- The address lies in a region the command reads or writes. -/
def Command.usesAt (c : Command) (g : Geom) (a : Nat) : Bool := (c.reads g).any (·.has a) || c.writesAt g a

/-! ## Taking an error, completion, reset -/

/-- Clear status, at the decode of every non-NOP command word (42_commands.md R161). -/
def State.clearStatus (s : State) : State :=
  { s with done := false, error := false, errCode := .none, errOffset := 0#32, errInfo := 0#32 }

/-- TAKING AN ERROR: "raise E(offset, info)" (60_exceptions.md R202). -/
def State.raiseError (code : ErrCode) (offset info : Word) (s : State) : State :=
  { s with es := .idle, error := true, errCode := code, errOffset := offset, errInfo := info }

/-- Every byte of one region becomes a draw of the state's next draw number. -/
def State.redrawRegion (q : Region) (s : State) : State :=
  { s with buf := Memory.redraw s.memSize (Config.draw s.draws) q.base q.size s.buf }

/-- Every byte of the command's write regions becomes a fresh draw (60_exceptions.md R203). -/
def State.redrawWrites (c : Command) (g : Geom) (s : State) : State :=
  let t := (c.writes g).foldl (fun u q => u.redrawRegion q) s
  { t with draws := s.draws + 1 }

/-- InvalidFilterType at row `r` with filter-type byte `t` (40_defilter.md R108, 60_exceptions.md R200, R202, R203). -/
def State.invalidFilterType (r : Nat) (t : Byte) (s : State) : State :=
  (s.raiseError .invalidFilterType (BitVec.ofNat 32 (r * s.geom.lineBytes)) (BitVec.ofNat 32 t.toNat)).redrawWrites
    s.opl s.geom

/-- Completion (42_commands.md R170). -/
def State.complete (s : State) : State := { s with es := .idle, done := true }

/-- The reset input asserted (70_reset_and_hazards.md R230, R236): every register at its reset value, every BUF byte a
fresh draw, whatever ran abandoned. The parameters and what comes next at the ports are not the block's to reset. -/
def State.assertReset (s : State) : State := State.afterReset s.params s.draws true s.inputs

/-- The reset input released. -/
def State.releaseReset (s : State) : State := { s with inReset := false }

end Sys2Proof.Machine
end

