-- ==== Sys2Proof/Machine/Commands.lean ====
section
/-! DEFINITION. The host commands (42_commands.md): validation in its fixed order, acceptance, and the four meanings. A
meaning is what a write of the command's word to CMD does; the engine steps it starts are in Filters.lean and
Engine.lean. -/

namespace Sys2Proof.Machine

/-- The command uses the region IN (42_commands.md R164, "DEFILTER, CONVERT"). -/
def Command.usesIn : Command → Bool
  | .defilter => true
  | .flip => false
  | .convert => true

/-- The command uses the region OUT (42_commands.md R164, "FLIP, CONVERT"). -/
def Command.usesOut : Command → Bool
  | .defilter => false
  | .flip => true
  | .convert => true

/-- The format check: the number of the first illegal field (42_commands.md R163). -/
def State.formatProblem (s : State) : Option Nat :=
  if s.format.bitDepth ≠ 8#8 then some 1
  else if s.format.colorType ≠ 6#8 then some 2
  else if s.format.compression ≠ 0#8 then some 3
  else if s.format.filterMethod ≠ 0#8 then some 4
  else if s.interlace ≠ 0#8 then some 5
  else none

/-- overlap(x, n, y, m) of two regions (42_commands.md R164). -/
def Region.overlaps (p q : Region) : Bool :=
  decide (p.base < q.base + q.size) && decide (q.base < p.base + p.size)

/-- The region ends past MEM_SIZE. -/
def Region.leaves (q : Region) (memSize : Nat) : Bool := decide (memSize < q.base + q.size)

/-- The geometry and region check: the number of the first failing sub-check (42_commands.md R164). -/
def Command.configProblem (c : Command) (g : Geom) (memSize : Nat) : Option Nat :=
  if g.width = 0#32 then some 1
  else if g.height = 0#32 then some 2
  else if c.usesIn && g.inRegion.leaves memSize then some 3
  else if g.rawRegion.leaves memSize then some 4
  else if c.usesOut && g.outRegion.leaves memSize then some 5
  else if c.usesIn && g.inRegion.overlaps g.rawRegion then some 6
  else if c.usesOut && g.rawRegion.overlaps g.outRegion then some 7
  else if c.usesIn && c.usesOut && g.inRegion.overlaps g.outRegion then some 8
  else none

/-- The stream-length check: the offset of the first disagreement (42_commands.md R165). -/
def State.lengthProblem (c : Command) (s : State) : Option Nat :=
  if c.usesIn && decide (s.inLen.toNat ≠ s.regGeom.inExpect) then some (min s.inLen.toNat s.regGeom.inExpect)
  else none

/-- Accept (42_commands.md R166), which latches OPL and GEOM (10_state.md R23) and opens the command's ownership window
(70_reset_and_hazards.md R232) in place of any earlier one (20_memory.md R73). -/
def State.accept (c : Command) (s : State) : State :=
  { s with
    es := (match c with | .flip => .flByte 0 0 | .defilter => .dfHdr 0 | .convert => .dfHdr 0)
    opl := c
    geom := s.regGeom
    window := some { cmd := c, geom := s.regGeom } }

/-- The checks of 42_commands.md R160 in their order, from a state whose status is cleared, and then acceptance. -/
def State.validateAndAccept (c : Command) (s : State) : State :=
  match s.formatProblem with
  | some n => s.raiseError .unsupportedFormat Config.offsetUnknown (BitVec.ofNat 32 n)
  | none =>
    match c.configProblem s.regGeom s.memSize with
    | some n => s.raiseError .configError Config.offsetUnknown (BitVec.ofNat 32 n)
    | none =>
      match s.lengthProblem c with
      | some n => s.raiseError .sizeMismatch (BitVec.ofNat 32 n) 0#32
      | none => s.accept c

/-- A write of command `c`'s word to CMD: ignored while busy, else decoded and executed (42_commands.md R160). -/
def State.startCommand (c : Command) (s : State) : State :=
  if s.busy then s else s.clearStatus.validateAndAccept c

/-- A write of an illegal word to CMD (42_commands.md R160, R162). -/
def State.illegalCommand (w : Word) (s : State) : State :=
  if s.busy then s else s.clearStatus.raiseError .illegalCommand Config.offsetUnknown w

/-! ## The meanings -/

/-- NOP (42_commands.md R167): nothing changes. -/
def execNop (s : State) : Host.Outcome State Fault Refusal := .next s

/-- DEFILTER (42_commands.md R168). -/
def execDefilter (s : State) : Host.Outcome State Fault Refusal := .next (s.startCommand .defilter)

/-- FLIP (42_commands.md R169). -/
def execFlip (s : State) : Host.Outcome State Fault Refusal := .next (s.startCommand .flip)

/-- CONVERT (42_commands.md R171). -/
def execConvert (s : State) : Host.Outcome State Fault Refusal := .next (s.startCommand .convert)

end Sys2Proof.Machine
end

