-- ==== Sys2Proof/Machine/Operands.lean ====
section
/-! DEFINITION. The operands of a reconstruction: the filtered byte X and the references left, up and upLeft
(30_encoding.md R85, 40_defilter.md R101). All are unsigned bytes, read as natural numbers. -/

namespace Sys2Proof.Machine

/-- X, the filtered byte (40_defilter.md R102). -/
def State.filteredByte (s : State) (r col : Nat) : Nat := (s.bufByte (s.geom.dataAddr r col)).toNat

/-- `a`, the left reference (40_defilter.md R101). -/
def State.leftRef (s : State) (r col : Nat) : Nat :=
  if Config.bpp ≤ col then (s.bufByte (s.geom.rawAddr r (col - Config.bpp))).toNat else 0

/-- `b`, the up reference (40_defilter.md R101). -/
def State.upRef (s : State) (r col : Nat) : Nat :=
  if 1 ≤ r then (s.bufByte (s.geom.rawAddr (r - 1) col)).toNat else 0

/-- `c`, the upLeft reference (40_defilter.md R101). -/
def State.upLeftRef (s : State) (r col : Nat) : Nat :=
  if 1 ≤ r ∧ Config.bpp ≤ col then (s.bufByte (s.geom.rawAddr (r - 1) (col - Config.bpp))).toNat else 0

/-- out = (X + Pred) mod 256, the only place a value wraps (40_defilter.md R102, R110). -/
def reconstruct (x pred : Nat) : Byte := BitVec.ofNat 8 (x + pred)

end Sys2Proof.Machine
end

