-- ==== Sys2Proof/Machine/Filters.lean ====
section
/-! DEFINITION. The five row opcodes (40_defilter.md). A row opcode acts at two places of its row: at DF_HDR(r) it is
latched into FT (R108), and at each DF_BYTE(r, col) it reconstructs one byte (R102, R109). -/

namespace Sys2Proof.Machine

/-! ## Predictors, over the integers (40_defilter.md R100, R110) -/

/-- None (40_defilter.md R103). -/
def predNone (_a _b _c : Nat) : Nat := 0

/-- Sub (40_defilter.md R104). -/
def predSub (a _b _c : Nat) : Nat := a

/-- Up (40_defilter.md R105). -/
def predUp (_a b _c : Nat) : Nat := b

/-- Average (40_defilter.md R106): the sum does not wrap. -/
def predAvg (a b _c : Nat) : Nat := (a + b) / 2

/-- Paeth (40_defilter.md R107): signed integer distances, ties to left, then up, then upLeft. -/
def predPaeth (a b c : Nat) : Nat :=
  let p : Int := (a : Int) + (b : Int) - (c : Int)
  let pa := (p - (a : Int)).natAbs
  let pb := (p - (b : Int)).natAbs
  let pc := (p - (c : Int)).natAbs
  if pa ≤ pb ∧ pa ≤ pc then a
  else if pb ≤ pc then b
  else c

/-- Pred(t, a, b, c) (40_defilter.md R100). -/
def FilterType.pred : FilterType → Nat → Nat → Nat → Nat
  | .none => predNone
  | .sub => predSub
  | .up => predUp
  | .avg => predAvg
  | .paeth => predPaeth

/-! ## The shared steps -/

/-- Where the engine goes after data byte `col` of row `r` (40_defilter.md R109). -/
def State.advanceDefilter (r col : Nat) (s : State) : State :=
  if col + 1 < s.geom.rowBytes then { s with es := .dfByte r (col + 1) }
  else if r + 1 < s.geom.rows then { s with es := .dfHdr (r + 1) }
  else if s.opl = .convert then { s with es := .flByte 0 0 }
  else s.complete

/-- One DF_BYTE step with predictor `pred` (40_defilter.md R101, R102, R109). Every reference lies below the byte
written, so the two addresses checked are the ones that could leave BUF. -/
def reconstructByte (pred : Nat → Nat → Nat → Nat) (r col : Nat) (s : State) : Host.Outcome State Fault Refusal :=
  if s.memSize ≤ s.geom.dataAddr r col then .fault (.engineOutsideBuf (s.geom.dataAddr r col))
  else if s.memSize ≤ s.geom.rawAddr r col then .fault (.engineOutsideBuf (s.geom.rawAddr r col))
  else
    let out := reconstruct (s.filteredByte r col) (pred (s.leftRef r col) (s.upRef r col) (s.upLeftRef r col))
    .next ((s.setBufByte (s.geom.rawAddr r col) out).advanceDefilter r col)

/-- A row opcode with latch value `t` and predictor `pred`, wherever in its row the engine stands. -/
def execRow (t : FilterType) (pred : Nat → Nat → Nat → Nat) (s : State) : Host.Outcome State Fault Refusal :=
  match s.es with
  | .dfHdr r => .next { s with ft := t, es := .dfByte r 0 }
  | .dfByte r col => reconstructByte pred r col s
  | .idle => .refused .noRowUnderWay
  | .flByte _ _ => .refused .noRowUnderWay

/-! ## The meanings -/

/-- NONE (40_defilter.md R103). -/
def execNone (s : State) : Host.Outcome State Fault Refusal := execRow .none predNone s

/-- SUB (40_defilter.md R104). -/
def execSub (s : State) : Host.Outcome State Fault Refusal := execRow .sub predSub s

/-- UP (40_defilter.md R105). -/
def execUp (s : State) : Host.Outcome State Fault Refusal := execRow .up predUp s

/-- AVG (40_defilter.md R106). -/
def execAvg (s : State) : Host.Outcome State Fault Refusal := execRow .avg predAvg s

/-- PAETH (40_defilter.md R107). -/
def execPaeth (s : State) : Host.Outcome State Fault Refusal := execRow .paeth predPaeth s

end Sys2Proof.Machine
end

