-- ==== Sys2Proof/Machine/Dispatch.lean ====
section
/-! DEFINITION. One arm per encoded operation. -/

namespace Sys2Proof.Machine

def exec (i : Instr) (s : State) : Host.Outcome State Fault Refusal :=
  match i with
  | .none => Sys2Proof.Machine.execNone s
  | .sub => Sys2Proof.Machine.execSub s
  | .up => Sys2Proof.Machine.execUp s
  | .avg => Sys2Proof.Machine.execAvg s
  | .paeth => Sys2Proof.Machine.execPaeth s
  | .nop => Sys2Proof.Machine.execNop s
  | .defilter => Sys2Proof.Machine.execDefilter s
  | .flip => Sys2Proof.Machine.execFlip s
  | .convert => Sys2Proof.Machine.execConvert s

end Sys2Proof.Machine
end

