-- ==== Sys2Proof/Machine/Engine.lean ====
section
/-! DEFINITION. The engine's steps around `exec`: reading and dispatching a row opcode (40_defilter.md R108), running the
latched one (R109), copying one byte of the flip (41_layout.md R142). -/

namespace Sys2Proof.Machine

/-- The row opcode a latched filter type stands for (30_encoding.md R83). -/
def FilterType.instr : FilterType → Instr
  | .none => .none
  | .sub => .sub
  | .up => .up
  | .avg => .avg
  | .paeth => .paeth

/-- DF_HDR(r): read row `r`'s opcode byte and dispatch it, or raise InvalidFilterType (40_defilter.md R108). -/
def fetchRow (r : Nat) (s : State) : Host.Outcome State Fault Refusal :=
  if s.memSize ≤ s.geom.ftypeAddr r then .fault (.engineOutsideBuf (s.geom.ftypeAddr r))
  else
    match decode (.ft (s.bufByte (s.geom.ftypeAddr r))) with
    | .ok i => exec i s
    | .error _ => .next (s.invalidFilterType r (s.bufByte (s.geom.ftypeAddr r)))

/-- The address FL_BYTE(i, k) writes: byte `k` of output row HEIGHT-1-i (41_layout.md R142). -/
def Geom.flipAddr (g : Geom) (i k : Nat) : Nat := g.outAddr (g.rows - 1 - i) k

/-- Where the engine goes after byte `k` of source row `i` (41_layout.md R142). -/
def State.advanceFlip (i k : Nat) (s : State) : State :=
  if k + 1 < s.geom.rowBytes then { s with es := .flByte i (k + 1) }
  else if i + 1 < s.geom.rows then { s with es := .flByte (i + 1) 0 }
  else s.complete

/-- FL_BYTE(i, k): copy one byte (41_layout.md R142). No byte moves inside a pixel (R143, R146). -/
def flipByte (i k : Nat) (s : State) : Host.Outcome State Fault Refusal :=
  if s.memSize ≤ s.geom.rawAddr i k then .fault (.engineOutsideBuf (s.geom.rawAddr i k))
  else if s.memSize ≤ s.geom.flipAddr i k then .fault (.engineOutsideBuf (s.geom.flipAddr i k))
  else .next ((s.setBufByte (s.geom.flipAddr i k) (s.bufByte (s.geom.rawAddr i k))).advanceFlip i k)

/-- One engine step: the one ES names (42_commands.md R173). When ES is IDLE the engine takes no step and all state
survives (60_exceptions.md R225). -/
def engineStep (s : State) : Host.Outcome State Fault Refusal :=
  match s.es with
  | .idle => .next s
  | .dfHdr r => fetchRow r s
  | .dfByte _ _ => exec s.ft.instr s
  | .flByte i k => flipByte i k s

end Sys2Proof.Machine
end

