-- ==== Sys2Proof/Machine/Ports.lean ====
section
/-! DEFINITION. The host's two ports and the interrupt line: the register map (10_state.md R25 to R47), the BUF byte port
(20_memory.md R62), the ownership window (70_reset_and_hazards.md R232), irq (60_exceptions.md R210). -/

namespace Sys2Proof.Machine

/-! ## The register map (10_state.md R26) -/

/-- The byte offset of a register. -/
def Reg.offset : Reg → Nat
  | .id => 0x00
  | .cmd => 0x04
  | .status => 0x08
  | .errCode => 0x0C
  | .errOffset => 0x10
  | .errInfo => 0x14
  | .intEn => 0x18
  | .width => 0x1C
  | .height => 0x20
  | .format => 0x24
  | .interlace => 0x28
  | .inBase => 0x2C
  | .inLen => 0x30
  | .rawBase => 0x34
  | .outBase => 0x38
  | .bpp => 0x3C
  | .inSize => 0x40
  | .rawSize => 0x44
  | .maskR => 0x48
  | .maskG => 0x4C
  | .maskB => 0x50
  | .maskA => 0x54

/-- Every register, in the map's order. -/
def Reg.all : List Reg :=
  [.id, .cmd, .status, .errCode, .errOffset, .errInfo, .intEn, .width, .height, .format, .interlace, .inBase, .inLen,
    .rawBase, .outBase, .bpp, .inSize, .rawSize, .maskR, .maskG, .maskB, .maskA]

/-- The register at a word index, or none where the offset is unmapped (10_state.md R25). -/
def regAt (i : RegIndex) : Option Reg := Reg.all.find? (fun r => r.offset == 4 * i.toNat)

/-- The word index of a register. -/
def Reg.index (r : Reg) : RegIndex := BitVec.ofNat 6 (r.offset / 4)

/-- The word FORMAT reads as (10_state.md R37). -/
def Format.word (f : Format) : Word := f.filterMethod ++ f.compression ++ f.colorType ++ f.bitDepth

/-- FORMAT's bytes from a written word (10_state.md R37). -/
def Format.ofWord (v : Word) : Format :=
  { bitDepth := v.extractLsb' 0 8
    colorType := v.extractLsb' 8 8
    compression := v.extractLsb' 16 8
    filterMethod := v.extractLsb' 24 8 }

/-- A size view: saturates at 0xFFFFFFFF (10_state.md R44, R45). -/
def saturate (n : Nat) : Word := BitVec.ofNat 32 (min n 0xFFFFFFFF)

/-- The value a register reads as (10_state.md R27 to R46). -/
def State.readReg (s : State) : Reg → Word
  | .id => Config.idValue
  | .cmd => 0#32
  | .status => s.statusWord
  | .errCode => BitVec.ofNat 32 s.errCode.number
  | .errOffset => s.errOffset
  | .errInfo => s.errInfo
  | .intEn => s.intEnWord
  | .width => s.width
  | .height => s.height
  | .format => s.format.word
  | .interlace => s.interlace.setWidth 32
  | .inBase => s.inBase
  | .inLen => s.inLen
  | .rawBase => s.rawBase
  | .outBase => s.outBase
  | .bpp => BitVec.ofNat 32 Config.bpp
  | .inSize => saturate s.regGeom.inExpect
  | .rawSize => saturate s.regGeom.rawBytes
  | .maskR => Config.maskR
  | .maskG => Config.maskG
  | .maskB => Config.maskB
  | .maskA => Config.maskA

/-- What the register port returns at a word index: unmapped offsets read 0 (10_state.md R25). -/
def State.readPort (s : State) (i : RegIndex) : Word :=
  match regAt i with
  | some r => s.readReg r
  | none => 0#32

/-- A write to a register other than CMD. STATUS and INT_EN take effect at all times; the configuration registers drop
the write while busy (10_state.md R47); read-only registers ignore it (R26). -/
def State.writeReg (r : Reg) (v : Word) (s : State) : State :=
  match r with
  | .status => s.ackStatus v
  | .intEn => s.setIntEn v
  | .width => if s.busy then s else { s with width := v }
  | .height => if s.busy then s else { s with height := v }
  | .format => if s.busy then s else { s with format := Format.ofWord v }
  | .interlace => if s.busy then s else { s with interlace := v.extractLsb' 0 8 }
  | .inBase => if s.busy then s else { s with inBase := v }
  | .inLen => if s.busy then s else { s with inLen := v }
  | .rawBase => if s.busy then s else { s with rawBase := v }
  | .outBase => if s.busy then s else { s with outBase := v }
  | .id | .cmd | .errCode | .errOffset | .errInfo | .bpp | .inSize | .rawSize | .maskR | .maskG | .maskB | .maskA => s

/-- A write to CMD: the word is decoded and the command executed (10_state.md R28, 42_commands.md R160). -/
def writeCommand (w : Word) (s : State) : Host.Outcome State Fault Refusal :=
  match decode (.cmd w) with
  | .ok i => exec i s
  | .error _ => .next (s.illegalCommand w)

/-- A register-port write (10_state.md R25). -/
def writePort (i : RegIndex) (v : Word) (s : State) : Host.Outcome State Fault Refusal :=
  match regAt i with
  | some .cmd => writeCommand v s
  | some r => .next (s.writeReg r v)
  | none => .next s

/-! ## The ownership window (70_reset_and_hazards.md R232, 20_memory.md R73). Log entry 4 -/

/-- A host write to `a` has no meaning: the window's command reads or writes that byte. -/
def State.writeOwned (s : State) (a : Nat) : Bool := s.window.any (fun c => c.cmd.usesAt c.geom a)

/-- A host read of `a` has no meaning: the window's command writes that byte. -/
def State.readOwned (s : State) (a : Nat) : Bool := s.window.any (fun c => c.cmd.writesAt c.geom a)

/-- The host has read STATUS: with BUSY = 0 the window ends (70_reset_and_hazards.md R232). -/
def State.statusSeen (s : State) : State := if s.busy then s else { s with window := none }

/-! ## Host accesses -/

/-- The access returns data. -/
def State.respond (d : Response) (s : State) : State := { s with response := some d }

/-- A register-port read (10_state.md R25): it returns the value and changes no register (20_memory.md R67). -/
def hostRegRead (i : RegIndex) (s : State) : State :=
  if regAt i = some .status then (s.respond (.reg (s.readPort i))).statusSeen
  else s.respond (.reg (s.readPort i))

/-- HostMemRead(a) (20_memory.md R62), unless 70_reset_and_hazards.md R232 gives it no meaning. -/
def hostMemRead (a : Word) (s : State) : Host.Outcome State Fault Refusal :=
  if s.readOwned a.toNat then .refused (.ownedRead a)
  else if a.toNat < s.memSize then .next (s.respond (.mem (s.bufByte a.toNat)))
  else .next (s.respond (.mem 0#8))

/-- HostMemWrite(a, v) (20_memory.md R62), unless 70_reset_and_hazards.md R232 gives it no meaning. -/
def hostMemWrite (a : Word) (v : Byte) (s : State) : Host.Outcome State Fault Refusal :=
  if s.writeOwned a.toNat then .refused (.ownedWrite a)
  else if a.toNat < s.memSize then .next (s.setBufByte a.toNat v)
  else .next s

/-- The host looks at the interrupt line (60_exceptions.md R210). The look ends no window: the STATUS read does
(70_reset_and_hazards.md R231, R232). -/
def hostIrqSample (s : State) : State := s.respond (.irq s.irq)

/-- One host access, from a state whose `response` is empty. -/
def hostAccess (op : HostOp) (s : State) : Host.Outcome State Fault Refusal :=
  match op with
  | .regRead i => .next (hostRegRead i s)
  | .regWrite i v => writePort i v s
  | .memRead a => hostMemRead a s
  | .memWrite a v => hostMemWrite a v s
  | .irqSample => .next (hostIrqSample s)

end Sys2Proof.Machine
end

