-- ==== Sys2Proof/Machine/Run.lean ====
section
/-! DEFINITION. One step of the whole: the next input of State's schedule, and how a code is placed so that the very next
step runs it. -/

namespace Sys2Proof.Machine

/-- The engine's turn. While reset is asserted no engine step takes effect (70_reset_and_hazards.md R230). -/
def engineTurn (s : State) : Host.Outcome State Fault Refusal :=
  if s.inReset then .next s else engineStep s

/-- The state with schedule `rest`. -/
def State.withInputs (rest : List Input) (s : State) : State := { s with inputs := rest }

/-- The last access's data is gone. -/
def State.clearResponse (s : State) : State := { s with response := none }

/-- The host's turn: the last access's data is gone, and this one is made unless reset is asserted
(70_reset_and_hazards.md R230). -/
def hostTurn (op : HostOp) (s : State) : Host.Outcome State Fault Refusal :=
  if s.inReset then .next s.clearResponse else hostAccess op s.clearResponse

/-- One step: the schedule's head moves, and when the schedule has run out the engine does (10_state.md R21,
70_reset_and_hazards.md R241). -/
def runInput (s : State) : Host.Outcome State Fault Refusal :=
  match s.inputs with
  | [] => engineTurn s
  | .engine :: rest => engineTurn (s.withInputs rest)
  | .host op :: rest => hostTurn op (s.withInputs rest)
  | .resetAssert :: rest => .next (s.withInputs rest).assertReset
  | .resetRelease :: rest => .next (s.withInputs rest).releaseReset

/-- At least one row and one pixel: the geometry a row under way has (10_state.md R22, 42_commands.md R164). -/
def atLeastOne (w : Word) : Word := if w = 0#32 then 1#32 else w

/-- The state with a row header next: itself where ES is DF_HDR already, else a DEFILTER at row 0 of the registers'
geometry, each dimension at least 1. Log entry 6. -/
def State.atRowHeader (s : State) : State :=
  match s.es with
  | .dfHdr _ => s
  | _ =>
    let t := { s with width := atLeastOne s.width, height := atLeastOne s.height }
    { t with es := .dfHdr 0, opl := .defilter, geom := t.regGeom }

/-- The address the next row opcode is read from. -/
def State.fetchAddr (s : State) : Nat :=
  match s.es with
  | .dfHdr r => s.geom.ftypeAddr r
  | _ => s.geom.ftypeAddr 0

/-- Place a row opcode where the next step reads it, and make that step the engine's. -/
def State.placeRowOpcode (t : Byte) (s : State) : State :=
  let u := s.atRowHeader
  { u.setBufByte u.fetchAddr t with inReset := false, inputs := .engine :: s.inputs }

/-- Place a command word: the next step is the host's write of it to CMD. -/
def State.placeCommand (w : Word) (s : State) : State :=
  { s with inReset := false, inputs := .host (.regWrite Reg.cmd.index w) :: s.inputs }

/-- Place the code that an opcode-table row's bits stand for. -/
def State.placeTableWord (s : State) (nbits w : Nat) : State :=
  match codeOfTable nbits w with
  | some (.ft t) => s.placeRowOpcode t
  | some (.cmd v) => s.placeCommand v
  | none => s

end Sys2Proof.Machine
end

