-- ==== Sys2Proof/Machine/Step.lean ====
section
/-! DEFINITION. The step of the machine, and the placing of a code for it. -/

namespace Sys2Proof.Machine

/-- One step of PNGDF: one engine transition, one host access, or one change of the reset input. -/
def step (s : State) : Host.Outcome State Fault Refusal := runInput s

/-- The state with an opcode-table row's bits stored where the very next step fetches its instruction. -/
def State.withFetchWord (s : State) (nbits w : Nat) : State := s.placeTableWord nbits w

end Sys2Proof.Machine
end

