-- ==== Sys2Proof/Safety.lean ====
section
/-! DEFINITION. The terms claims are stated in: running several steps, when a command is ready, what a rejected command
leaves, the invariant every step keeps, the steps a command still has, and what a reconstructed and a flipped image are.
The machine does not use this file. -/

namespace Sys2Proof.Machine

/-! ## Running -/

/-- `n` steps, stopping at the first fault or refusal. -/
def runSteps : Nat → State → Host.Outcome State Fault Refusal
  | 0, s => .next s
  | n + 1, s =>
    match step s with
    | .next t => runSteps n t
    | .fault f => .fault f
    | .refused q => .refused q

/-- The engine moves next and `rest` is what comes after: the schedule names it or has run out, and reset is released. -/
abbrev State.engineNext (s : State) (rest : List Input) : Prop :=
  s.inReset = false ∧ (s.inputs = .engine :: rest ∨ (s.inputs = [] ∧ rest = []))

/-- The host makes access `op` next and `rest` is what comes after, and reset is released. -/
abbrev State.hostNext (s : State) (op : HostOp) (rest : List Input) : Prop :=
  s.inReset = false ∧ s.inputs = .host op :: rest

/-- The engine alone moves from here on. -/
abbrev State.engineAlone (s : State) : Prop := s.inReset = false ∧ s.inputs = []

/-! ## Commands: ready, rejected -/

/-- The instruction of an engine command (30_encoding.md R84). -/
def Command.instr : Command → Instr
  | .defilter => .defilter
  | .flip => .flip
  | .convert => .convert

/-- The intervals do not share an address (the negation of overlap, 42_commands.md R164). -/
abbrev Region.Apart (p q : Region) : Prop := p.base + p.size ≤ q.base ∨ q.base + q.size ≤ p.base

/-- FORMAT and INTERLACE hold the only legal values (10_state.md R37, R38). -/
abbrev State.FormatLegal (s : State) : Prop :=
  s.format = { bitDepth := 8#8, colorType := 6#8, compression := 0#8, filterMethod := 0#8 } ∧ s.interlace = 0#8

/-- ConfigError's sub-check `n` fails for command `c`: the table of 42_commands.md R164, row by row, over the integers. -/
def State.subCheckFails (s : State) (c : Command) : Nat → Prop
  | 1 => s.width = 0#32
  | 2 => s.height = 0#32
  | 3 => (c = .defilter ∨ c = .convert) ∧ s.memSize < s.inBase.toNat + s.height.toNat * (1 + 4 * s.width.toNat)
  | 4 => s.memSize < s.rawBase.toNat + s.height.toNat * (4 * s.width.toNat)
  | 5 => (c = .flip ∨ c = .convert) ∧ s.memSize < s.outBase.toNat + s.height.toNat * (4 * s.width.toNat)
  | 6 => (c = .defilter ∨ c = .convert) ∧
      s.inBase.toNat < s.rawBase.toNat + s.height.toNat * (4 * s.width.toNat) ∧
      s.rawBase.toNat < s.inBase.toNat + s.height.toNat * (1 + 4 * s.width.toNat)
  | 7 => (c = .flip ∨ c = .convert) ∧
      s.rawBase.toNat < s.outBase.toNat + s.height.toNat * (4 * s.width.toNat) ∧
      s.outBase.toNat < s.rawBase.toNat + s.height.toNat * (4 * s.width.toNat)
  | 8 => c = .convert ∧
      s.inBase.toNat < s.outBase.toNat + s.height.toNat * (4 * s.width.toNat) ∧
      s.outBase.toNat < s.inBase.toNat + s.height.toNat * (1 + 4 * s.width.toNat)
  | _ => False

/-- A command's regions lie inside BUF and apart, and its geometry is not empty (42_commands.md R164). -/
abbrev Command.Fits (c : Command) (g : Geom) (memSize : Nat) : Prop :=
  g.width ≠ 0#32 ∧ g.height ≠ 0#32 ∧
  (c ≠ .flip → g.inRegion.base + g.inRegion.size ≤ memSize) ∧
  (g.rawRegion.base + g.rawRegion.size ≤ memSize) ∧
  (c ≠ .defilter → g.outRegion.base + g.outRegion.size ≤ memSize) ∧
  (c ≠ .flip → g.inRegion.Apart g.rawRegion) ∧
  (c ≠ .defilter → g.rawRegion.Apart g.outRegion) ∧
  (c = .convert → g.inRegion.Apart g.outRegion)

/-- Every check of 42_commands.md R160 passes for command `c`. -/
abbrev State.ReadyFor (s : State) (c : Command) : Prop :=
  s.FormatLegal ∧ c.Fits s.regGeom s.memSize ∧ (c ≠ .flip → s.inLen.toNat = s.regGeom.inExpect)

/-- What a rejected command leaves of `s`: only STATUS and ERR_* change (42_commands.md R160, R161, 60_exceptions.md
R202). -/
def State.rejected (s : State) (code : ErrCode) (offset info : Word) : State :=
  { s with done := false, error := true, errCode := code, errOffset := offset, errInfo := info }

/-- What an accepted command leaves of `s`: status cleared, ES, OPL and GEOM set, its ownership window open
(42_commands.md R161, R166; 10_state.md R23; 70_reset_and_hazards.md R232). -/
def State.accepted (s : State) (c : Command) (es : EngineState) : State :=
  { s with
    done := false, error := false, errCode := .none, errOffset := 0#32, errInfo := 0#32
    es := es
    opl := c
    geom := { width := s.width, height := s.height, inBase := s.inBase, rawBase := s.rawBase, outBase := s.outBase }
    window := some
      { cmd := c
        geom := { width := s.width, height := s.height, inBase := s.inBase, rawBase := s.rawBase, outBase := s.outBase } } }

/-! ## The invariant -/

/-- MEM_SIZE is within its bounds (00_scope.md R9). -/
abbrev State.ParamsOk (s : State) : Prop := 1 ≤ s.memSize ∧ s.memSize ≤ 4294967296

/-- BUF's list is canonical: addresses rising, all below MEM_SIZE (20_memory.md R60). -/
abbrev State.MemOk (s : State) : Prop := Memory.wf s.memSize s.buf

/-- DONE and ERROR are never both 1, and while a command runs neither is and ERR_* are 0 (10_state.md R29, R31; 42_commands.md
R161); DONE only with ERR_CODE 0 (R170), ERROR only with an error's code. -/
abbrev State.StatusOk (s : State) : Prop :=
  ¬(s.done = true ∧ s.error = true) ∧
  (s.busy = true → s.done = false ∧ s.error = false ∧ s.errCode = .none ∧ s.errOffset = 0#32 ∧ s.errInfo = 0#32) ∧
  (s.done = true → s.errCode = .none) ∧
  (s.error = true → s.errCode ≠ .none)

/-- While a command runs, GEOM equals the registers (10_state.md R23, R47) and every check the command passed still
holds. -/
abbrev State.GeomOk (s : State) : Prop := s.busy = true → s.geom = s.regGeom ∧ s.ReadyFor s.opl

/-- ES's counters are in range and ES is a state of the latched command (10_state.md R22, 42_commands.md R166). -/
def State.positionOk (s : State) : Bool :=
  match s.es with
  | .idle => true
  | .dfHdr r => decide (r < s.geom.rows) && decide (s.opl ≠ .flip)
  | .dfByte r col => decide (r < s.geom.rows) && decide (col < s.geom.rowBytes) && decide (s.opl ≠ .flip)
  | .flByte i k => decide (i < s.geom.rows) && decide (k < s.geom.rowBytes) && decide (s.opl ≠ .defilter)

/-- While a command runs, the open ownership window is that command's (70_reset_and_hazards.md R232, 20_memory.md R73). -/
abbrev State.WindowOk (s : State) : Prop := s.busy = true → s.window = some { cmd := s.opl, geom := s.geom }

/-- While reset is asserted the engine is idle and no interrupt is up (70_reset_and_hazards.md R230). -/
abbrev State.ResetOk (s : State) : Prop :=
  s.inReset = true → s.busy = false ∧ s.done = false ∧ s.error = false ∧ s.doneIE = false ∧ s.errIE = false

/-- The draw that unlisted bytes stand for has been used up (log entry 2). -/
abbrev State.DrawsOk (s : State) : Prop := s.bufEpoch < s.draws

/-- The invariant of PNGDF. -/
abbrev State.Inv (s : State) : Prop :=
  s.ParamsOk ∧ s.MemOk ∧ s.StatusOk ∧ s.GeomOk ∧ s.positionOk = true ∧ s.WindowOk ∧ s.ResetOk ∧ s.DrawsOk

/-! ## Progress -/

/-- The engine steps a running command still takes if no row is illegal (42_commands.md R172). -/
def State.stepsLeft (s : State) : Nat :=
  let tail := if s.opl = .convert then s.geom.rawBytes else 0
  match s.es with
  | .idle => 0
  | .dfHdr r => (s.geom.rows - r) * s.geom.lineBytes + tail
  | .dfByte r col => (s.geom.rows - r) * s.geom.lineBytes - (1 + col) + tail
  | .flByte i k => (s.geom.rows - i) * s.geom.rowBytes - k

/-! ## Images -/

/-- The FTYPE byte of a filter (30_encoding.md R83). -/
def FilterType.code : FilterType → Byte
  | .none => 0#8
  | .sub => 1#8
  | .up => 2#8
  | .avg => 3#8
  | .paeth => 4#8

/-- RAW holds the reconstruction of IN at row `r`, byte `col`: 40_defilter.md R101 and R102, with the references taken from
RAW itself. -/
def State.byteDefiltered (s : State) (r col : Nat) : Prop :=
  ∀ t : FilterType, s.bufByte (s.geom.ftypeAddr r) = t.code →
    s.bufByte (s.geom.rawAddr r col) =
      reconstruct (s.filteredByte r col) (t.pred (s.leftRef r col) (s.upRef r col) (s.upLeftRef r col))

/-- RAW holds the reconstruction of IN (40_defilter.md R111). The equations fix every byte of RAW, row by row. -/
def State.Defiltered (s : State) : Prop :=
  ∀ r col, r < s.geom.rows → col < s.geom.rowBytes → s.byteDefiltered r col

/-- Every row's filter-type byte is legal (30_encoding.md R83, R86). -/
abbrev State.RowsLegal (s : State) (g : Geom) : Prop := ∀ r, r < g.rows → (s.bufByte (g.ftypeAddr r)).toNat ≤ 4

/-- OUT in `s` is RAW in `before` with the rows reversed (41_layout.md R141). -/
def Flipped (g : Geom) (before s : State) : Prop :=
  ∀ i k, i < g.rows → k < g.rowBytes →
    s.bufByte (g.outBase.toNat + (g.rows - 1 - i) * g.rowBytes + k) =
      before.bufByte (g.rawBase.toNat + i * g.rowBytes + k)

/-- The references of 40_defilter.md R101 taken from a raw image `P` (row, byte) instead of RAW (R112). -/
def imageRefs (P : Nat → Nat → Byte) (r col : Nat) : Nat × Nat × Nat :=
  (if 4 ≤ col then (P r (col - 4)).toNat else 0,
   if 1 ≤ r then (P (r - 1) col).toNat else 0,
   if 1 ≤ r ∧ 4 ≤ col then (P (r - 1) (col - 4)).toNat else 0)

/-- The forward filter F = (P - Pred) mod 256 with type `t` (40_defilter.md R112); not a function of PNGDF. -/
def forwardFilter (t : FilterType) (P : Nat → Nat → Byte) (r col : Nat) : Byte :=
  P r col - BitVec.ofNat 8
    (t.pred (imageRefs P r col).1 (imageRefs P r col).2.1 (imageRefs P r col).2.2)

/-- IN holds the stream of image `P` filtered with type `ty r` in row `r` (40_defilter.md R112). -/
def State.StreamOf (s : State) (g : Geom) (ty : Nat → FilterType) (P : Nat → Nat → Byte) : Prop :=
  ∀ r, r < g.rows →
    s.bufByte (g.ftypeAddr r) = (ty r).code ∧
    ∀ col, col < g.rowBytes → s.bufByte (g.dataAddr r col) = forwardFilter (ty r) P r col

/-- The registers as one pixel word: bytes at offsets 0 to 3, the first the least significant (41_layout.md R146). -/
def pixelWord (b0 b1 b2 b3 : Byte) : Word := b3 ++ b2 ++ b1 ++ b0

end Sys2Proof.Machine
end

