-- ==== Sys2Proof/Certificates/Slice0/Obligations.lean ====
section
/-! DEFINITION. The statements about PNGDF for the provers. Register word indexes are byte offsets of 10_state.md R26 divided
by 4: CMD 1, STATUS 2, INT_EN 6, WIDTH 7 to OUT_BASE 14. -/

open Sys2Proof Sys2Proof.Machine

/-! ## Encoding -/

/-- The nine codes of 30_encoding.md R83 and R84, written out bit by bit, decode to what they stand for. -/
def Obligations.SpecCodesDecode : Prop :=
  decode (.ft 0b00000000#8) = .ok .none ∧
  decode (.ft 0b00000001#8) = .ok .sub ∧
  decode (.ft 0b00000010#8) = .ok .up ∧
  decode (.ft 0b00000011#8) = .ok .avg ∧
  decode (.ft 0b00000100#8) = .ok .paeth ∧
  decode (.cmd 0b00000000000000000000000000000000#32) = .ok .nop ∧
  decode (.cmd 0b00000000000000000000000000000001#32) = .ok .defilter ∧
  decode (.cmd 0b00000000000000000000000000000010#32) = .ok .flip ∧
  decode (.cmd 0b00000000000000000000000000000011#32) = .ok .convert

/-- Decode and encode agree on every code of both forms, and a decoded instruction stands in the code's own form; every other
code is refused by its name: row bytes 0x05 to 0xFF, command words with a non-zero RSV or OP 4 to 15 (30_encoding.md R80, R83,
R84, R86). -/
def Obligations.DecodeAgreesWithEncode : Prop :=
  (∀ (c : Code) (i : Instr),
    (decode c = .ok i ↔ encode i = c) ∧ (decode c = .ok i → i.wellFormedIn c.form = true)) ∧
  (∀ t : Byte, 4 < t.toNat → decode (.ft t) = .error (.invalidFilterType t)) ∧
  (∀ w : Word, w.extractLsb' 4 28 ≠ 0#28 ∨ 4 ≤ (w.extractLsb' 0 4).toNat →
    decode (.cmd w) = .error (.illegalCommand w))

/-! ## A step runs the decoded instruction -/

/-- A step runs the decoded instruction. At DF_HDR(r) with the engine next it is `exec` of what the row's first byte decodes
to; at DF_BYTE(r, col), of the row opcode latched in FT; when the host writes a word to CMD, of what the word decodes to. Around
`exec` the step consumes the schedule's entry, and a host access first drops the last access's data (40_defilter.md R108, R109;
10_state.md R21, R28; 42_commands.md R160). -/
def Obligations.StepRunsDecodedInstruction : Prop :=
  ∀ (s : State) (rest : List Input),
    (∀ r i, s.engineNext rest → s.es = .dfHdr r → s.geom.ftypeAddr r < s.memSize →
      decode (.ft (s.bufByte (s.geom.ftypeAddr r))) = .ok i → step s = exec i (s.withInputs rest)) ∧
    (∀ r col, s.engineNext rest → s.es = .dfByte r col →
      ∃ i, encode i = .ft s.ft.code ∧ step s = exec i (s.withInputs rest)) ∧
    (∀ w i, s.hostNext (.regWrite 1#6 w) rest → decode (.cmd w) = .ok i →
      step s = exec i (s.withInputs rest).clearResponse)

/-! ## Layout and operands -/

/-- R, L, IN_EXPECT, RAW_BYTES over the integers, and where each byte of IN, RAW and OUT lies (00_scope.md R10, 20_memory.md
R68). -/
def Obligations.GeometryAndRegionLayout : Prop :=
  ∀ (g : Geom) (r col : Nat),
    g.rowBytes = 4 * g.width.toNat ∧
    g.lineBytes = 1 + g.rowBytes ∧
    g.inExpect = g.height.toNat * g.lineBytes ∧
    g.rawBytes = g.height.toNat * g.rowBytes ∧
    g.ftypeAddr r = g.inBase.toNat + r * g.lineBytes ∧
    g.dataAddr r col = g.inBase.toNat + r * g.lineBytes + 1 + col ∧
    g.rawAddr r col = g.rawBase.toNat + r * g.rowBytes + col ∧
    g.outAddr r col = g.outBase.toNat + r * g.rowBytes + col ∧
    g.inRegion = { base := g.inBase.toNat, size := g.inExpect } ∧
    g.rawRegion = { base := g.rawBase.toNat, size := g.rawBytes } ∧
    g.outRegion = { base := g.outBase.toNat, size := g.rawBytes } ∧
    Command.reads g .defilter = [g.inRegion, g.rawRegion] ∧ Command.writes g .defilter = [g.rawRegion] ∧
    Command.reads g .flip = [g.rawRegion] ∧ Command.writes g .flip = [g.outRegion] ∧
    Command.reads g .convert = [g.inRegion, g.rawRegion] ∧
    Command.writes g .convert = [g.rawRegion, g.outRegion]

/-- The references of a data byte are RAW bytes of the same channel, or 0 where none exists (40_defilter.md R101). -/
def Obligations.ReferencesComeFromRaw : Prop :=
  ∀ (s : State) (r col : Nat),
    s.leftRef r col =
      (if col ≥ 4 then (s.bufByte (s.geom.rawBase.toNat + r * s.geom.rowBytes + (col - 4))).toNat else 0) ∧
    s.upRef r col =
      (if r ≥ 1 then (s.bufByte (s.geom.rawBase.toNat + (r - 1) * s.geom.rowBytes + col)).toNat else 0) ∧
    s.upLeftRef r col =
      (if r ≥ 1 ∧ col ≥ 4 then
        (s.bufByte (s.geom.rawBase.toNat + (r - 1) * s.geom.rowBytes + (col - 4))).toNat else 0)

/-! ## The five filters -/

/-- NONE completes at every data byte inside BUF and copies X (40_defilter.md R103). -/
def Obligations.NoneCopiesTheByte : Prop :=
  encode .none = .ft 0x00#8 ∧
  ∀ (s : State) (r col : Nat),
    s.es = .dfByte r col → s.geom.dataAddr r col < s.memSize → s.geom.rawAddr r col < s.memSize →
    ∃ t, exec .none s = .next t ∧
      (t.bufByte (s.geom.rawAddr r col)).toNat = s.filteredByte r col ∧
      t.error = s.error ∧ t.errCode = s.errCode

/-- SUB completes at every data byte inside BUF: out = (X + a) mod 256, and X where col < 4 (40_defilter.md R104). -/
def Obligations.SubAddsLeft : Prop :=
  encode .sub = .ft 0x01#8 ∧
  ∀ (s : State) (r col : Nat),
    s.es = .dfByte r col → s.geom.dataAddr r col < s.memSize → s.geom.rawAddr r col < s.memSize →
    ∃ t, exec .sub s = .next t ∧
      (t.bufByte (s.geom.rawAddr r col)).toNat = (s.filteredByte r col + s.leftRef r col) % 256 ∧
      (col < 4 → (t.bufByte (s.geom.rawAddr r col)).toNat = s.filteredByte r col) ∧
      t.error = s.error ∧ t.errCode = s.errCode

/-- UP completes at every data byte inside BUF: out = (X + b) mod 256, and X in row 0 (40_defilter.md R105). -/
def Obligations.UpAddsUp : Prop :=
  encode .up = .ft 0x02#8 ∧
  ∀ (s : State) (r col : Nat),
    s.es = .dfByte r col → s.geom.dataAddr r col < s.memSize → s.geom.rawAddr r col < s.memSize →
    ∃ t, exec .up s = .next t ∧
      (t.bufByte (s.geom.rawAddr r col)).toNat = (s.filteredByte r col + s.upRef r col) % 256 ∧
      (r = 0 → (t.bufByte (s.geom.rawAddr r col)).toNat = s.filteredByte r col) ∧
      t.error = s.error ∧ t.errCode = s.errCode

/-- AVG completes at every data byte inside BUF: out = (X + floor((a + b) / 2)) mod 256 with an exact sum, and its boundary
cases (40_defilter.md R106). -/
def Obligations.AvgAddsHalfTheSum : Prop :=
  encode .avg = .ft 0x03#8 ∧
  ∀ (s : State) (r col : Nat),
    s.es = .dfByte r col → s.geom.dataAddr r col < s.memSize → s.geom.rawAddr r col < s.memSize →
    ∃ t, exec .avg s = .next t ∧
      (t.bufByte (s.geom.rawAddr r col)).toNat =
        (s.filteredByte r col + (s.leftRef r col + s.upRef r col) / 2) % 256 ∧
      (r = 0 → (t.bufByte (s.geom.rawAddr r col)).toNat = (s.filteredByte r col + s.leftRef r col / 2) % 256) ∧
      (col < 4 → (t.bufByte (s.geom.rawAddr r col)).toNat = (s.filteredByte r col + s.upRef r col / 2) % 256) ∧
      (r = 0 → col < 4 → (t.bufByte (s.geom.rawAddr r col)).toNat = s.filteredByte r col) ∧
      t.error = s.error ∧ t.errCode = s.errCode

/-- PAETH completes at every data byte inside BUF: out = (X + v) mod 256 where v is chosen by the integer distances
pa, pb, pc, ties to a, then b, then c; it acts as SUB in row 0 and as UP where col < 4 (40_defilter.md R107). -/
def Obligations.PaethAddsNearest : Prop :=
  encode .paeth = .ft 0x04#8 ∧
  ∀ (s : State) (r col : Nat),
    s.es = .dfByte r col → s.geom.dataAddr r col < s.memSize → s.geom.rawAddr r col < s.memSize →
    ∃ (t : State) (v : Nat) (p : Int), exec .paeth s = .next t ∧
      p = (s.leftRef r col : Int) + (s.upRef r col : Int) - (s.upLeftRef r col : Int) ∧
      v =
        (if (p - s.leftRef r col).natAbs ≤ (p - s.upRef r col).natAbs ∧
            (p - s.leftRef r col).natAbs ≤ (p - s.upLeftRef r col).natAbs then s.leftRef r col
         else if (p - s.upRef r col).natAbs ≤ (p - s.upLeftRef r col).natAbs then s.upRef r col
         else s.upLeftRef r col) ∧
      (t.bufByte (s.geom.rawAddr r col)).toNat = (s.filteredByte r col + v) % 256 ∧
      (r = 0 → (t.bufByte (s.geom.rawAddr r col)).toNat = (s.filteredByte r col + s.leftRef r col) % 256) ∧
      (col < 4 → (t.bufByte (s.geom.rawAddr r col)).toNat = (s.filteredByte r col + s.upRef r col) % 256) ∧
      t.error = s.error ∧ t.errCode = s.errCode

/-- The Paeth predictor is one of its three references, none is nearer to a + b - c, and a tie goes to left, then up, then
upLeft (40_defilter.md R107, the source's wording). -/
def Obligations.PaethPicksNearestInOrder : Prop :=
  ∀ a b c : Nat,
    let p : Int := (a : Int) + (b : Int) - (c : Int)
    let v := predPaeth a b c
    let near := fun x : Nat => (p - (x : Int)).natAbs
    (v = a ∨ v = b ∨ v = c) ∧
    near v ≤ near a ∧ near v ≤ near b ∧ near v ≤ near c ∧
    (near a = near v → v = a) ∧
    (near a ≠ near v → near b = near v → v = b)

/-- Pred of three bytes is a byte, for every filter, so the one mod 256 of R102 is the only reduction (40_defilter.md R110). -/
def Obligations.PredictorsOfBytesAreBytes : Prop :=
  ∀ (f : FilterType) (a b c : Nat), a < 256 → b < 256 → c < 256 → f.pred a b c < 256

/-- At the image's edges the filters coincide as instructions: in row 0 UP is NONE and PAETH is SUB, where col < 4 SUB is NONE
and PAETH is UP (40_defilter.md R104 to R107, corner cases). -/
def Obligations.FiltersCoincideAtEdges : Prop :=
  ∀ (s : State) (r col : Nat), s.es = .dfByte r col →
    (r = 0 → exec .up s = exec .none s ∧ exec .paeth s = exec .sub s) ∧
    (col < 4 → exec .sub s = exec .none s ∧ exec .paeth s = exec .up s)

/-- FRAME of NONE, SUB, UP, AVG, PAETH at DF_BYTE(r, col): every register, latch and port field but ES and DONE is unchanged,
DONE only rises and only at completion, and every byte of BUF but the RAW byte (r, col) reads as before. -/
def Obligations.RowOpcodesWriteOneByteOnly : Prop :=
  ∀ i ∈ [Instr.none, Instr.sub, Instr.up, Instr.avg, Instr.paeth], ∀ (s t : State) (r col : Nat),
    s.es = .dfByte r col → exec i s = .next t →
    t = { s with buf := t.buf, es := t.es, done := t.done } ∧
    (t.done = s.done ∨ (t.done = true ∧ t.es = .idle)) ∧
    ∀ a, a ≠ s.geom.rawAddr r col → t.bufByte a = s.bufByte a

/-- At DF_HDR(r) each row opcode is latched into FT and nothing else but ES changes (40_defilter.md R108). -/
def Obligations.RowOpcodesLatchAtHeader : Prop :=
  ∀ (s : State) (r : Nat), s.es = .dfHdr r →
    exec .none s = .next { s with ft := .none, es := .dfByte r 0 } ∧
    exec .sub s = .next { s with ft := .sub, es := .dfByte r 0 } ∧
    exec .up s = .next { s with ft := .up, es := .dfByte r 0 } ∧
    exec .avg s = .next { s with ft := .avg, es := .dfByte r 0 } ∧
    exec .paeth s = .next { s with ft := .paeth, es := .dfByte r 0 }

/-- THE MODEL'S CHOICE, log entry 7: where no row is under way a row opcode is refused by name. A step never runs one there
(Obligations.StepRefusesOnlyOwnedAccesses). -/
def Obligations.RowOpcodesRefusedOffRow : Prop :=
  ∀ i ∈ [Instr.none, Instr.sub, Instr.up, Instr.avg, Instr.paeth], ∀ s : State,
    (s.es = .idle ∨ ∃ j k, s.es = .flByte j k) → exec i s = .refused .noRowUnderWay

/-! ## Engine steps -/

/-- Step DF_HDR(r): a byte above 4 raises InvalidFilterType with offset r*L and the byte as info, any other is latched and
the row begins (40_defilter.md R108). -/
def Obligations.RowHeaderDispatchesOrRaises : Prop :=
  ∀ (s : State) (r : Nat) (rest : List Input),
    s.engineNext rest → s.es = .dfHdr r → s.geom.ftypeAddr r < s.memSize →
    (4 < (s.bufByte (s.geom.ftypeAddr r)).toNat →
      ∃ t, step s = .next t ∧
        t = { s with
              inputs := rest, es := .idle, error := true, errCode := .invalidFilterType
              errOffset := BitVec.ofNat 32 (r * s.geom.lineBytes)
              errInfo := (s.bufByte (s.geom.ftypeAddr r)).setWidth 32
              buf := t.buf, draws := t.draws }) ∧
    ((s.bufByte (s.geom.ftypeAddr r)).toNat ≤ 4 →
      ∃ f : FilterType, f.code = s.bufByte (s.geom.ftypeAddr r) ∧
        step s = .next { s with inputs := rest, ft := f, es := .dfByte r 0 })

/-- After InvalidFilterType every BUF byte of the write regions is a fresh draw, every other byte is unchanged; no command
word changes BUF at decode (60_exceptions.md R203). -/
def Obligations.ErrorDrawsWriteRegionsOnly : Prop :=
  (∀ (s : State) (r : Nat) (rest : List Input),
    s.engineNext rest → s.es = .dfHdr r → s.geom.ftypeAddr r < s.memSize →
    4 < (s.bufByte (s.geom.ftypeAddr r)).toNat → s.opl ≠ .flip →
    ∃ t, step s = .next t ∧ ∀ a,
      (a < s.memSize →
        ((s.geom.rawBase.toNat ≤ a ∧ a < s.geom.rawBase.toNat + s.geom.rawBytes) ∨
         (s.opl = .convert ∧ s.geom.outBase.toNat ≤ a ∧ a < s.geom.outBase.toNat + s.geom.rawBytes)) →
        t.bufByte a = Config.draw s.draws a) ∧
      (¬(s.geom.rawBase.toNat ≤ a ∧ a < s.geom.rawBase.toNat + s.geom.rawBytes) →
        ¬(s.opl = .convert ∧ s.geom.outBase.toNat ≤ a ∧ a < s.geom.outBase.toNat + s.geom.rawBytes) →
        t.bufByte a = s.bufByte a)) ∧
  (∀ (s t : State) (w : Word) (rest : List Input),
    s.hostNext (.regWrite 1#6 w) rest → step s = .next t → ∀ a, t.bufByte a = s.bufByte a)

/-- Step DF_BYTE(r, col): it writes (X + Pred) mod 256 with the latched filter and goes to the next byte, the next row, the
flip phase of CONVERT, or completion, and nothing else changes (40_defilter.md R102, R109). -/
def Obligations.ReconstructionStepWritesAndAdvances : Prop :=
  ∀ (s : State) (r col : Nat) (rest : List Input),
    s.engineNext rest → s.es = .dfByte r col →
    s.geom.dataAddr r col < s.memSize → s.geom.rawAddr r col < s.memSize →
    ∃ t, step s = .next t ∧
      (t.bufByte (s.geom.rawAddr r col)).toNat =
        (s.filteredByte r col + s.ft.pred (s.leftRef r col) (s.upRef r col) (s.upLeftRef r col)) % 256 ∧
      (∀ a, a ≠ s.geom.rawAddr r col → t.bufByte a = s.bufByte a) ∧
      (col + 1 < s.geom.rowBytes →
        t = { s with inputs := rest, buf := t.buf, es := .dfByte r (col + 1) }) ∧
      (s.geom.rowBytes ≤ col + 1 → r + 1 < s.geom.rows →
        t = { s with inputs := rest, buf := t.buf, es := .dfHdr (r + 1) }) ∧
      (s.geom.rowBytes ≤ col + 1 → s.geom.rows ≤ r + 1 → s.opl = .convert →
        t = { s with inputs := rest, buf := t.buf, es := .flByte 0 0 }) ∧
      (s.geom.rowBytes ≤ col + 1 → s.geom.rows ≤ r + 1 → s.opl ≠ .convert →
        t = { s with inputs := rest, buf := t.buf, es := .idle, done := true })

/-- Step FL_BYTE(i, k): it copies RAW byte (i, k) to byte k of output row HEIGHT-1-i and goes to the next byte, the next row,
or completion, and nothing else changes (41_layout.md R142). -/
def Obligations.FlipStepCopiesAndAdvances : Prop :=
  ∀ (s : State) (i k : Nat) (rest : List Input),
    s.engineNext rest → s.es = .flByte i k →
    s.geom.rawBase.toNat + i * s.geom.rowBytes + k < s.memSize →
    s.geom.outBase.toNat + (s.geom.height.toNat - 1 - i) * s.geom.rowBytes + k < s.memSize →
    ∃ t, step s = .next t ∧
      t.bufByte (s.geom.outBase.toNat + (s.geom.height.toNat - 1 - i) * s.geom.rowBytes + k) =
        s.bufByte (s.geom.rawBase.toNat + i * s.geom.rowBytes + k) ∧
      (∀ a, a ≠ s.geom.outBase.toNat + (s.geom.height.toNat - 1 - i) * s.geom.rowBytes + k →
        t.bufByte a = s.bufByte a) ∧
      (k + 1 < s.geom.rowBytes →
        t = { s with inputs := rest, buf := t.buf, es := .flByte i (k + 1) }) ∧
      (s.geom.rowBytes ≤ k + 1 → i + 1 < s.geom.height.toNat →
        t = { s with inputs := rest, buf := t.buf, es := .flByte (i + 1) 0 }) ∧
      (s.geom.rowBytes ≤ k + 1 → s.geom.height.toNat ≤ i + 1 →
        t = { s with inputs := rest, buf := t.buf, es := .idle, done := true })

/-! ## Commands -/

/-- NOP always completes and changes nothing, busy or not (42_commands.md R167). -/
def Obligations.NopChangesNothing : Prop :=
  encode .nop = .cmd 0x00000000#32 ∧ ∀ s : State, exec .nop s = .next s

/-- DEFILTER, FLIP and CONVERT complete their own effect, the start of the command, in every idle state in which every check
passes: status cleared (42_commands.md R161), OPL latched, ES at the first step, BUSY 1 and PHASE 1, 2 for FLIP (R166), GEOM
latched (10_state.md R23), the ownership window open, and nothing else changed. The window as a piece of state is the model's,
log entry 4 (DEDUCED from 70_reset_and_hazards.md R232). -/
def Obligations.ReadyCommandsAreAccepted : Prop :=
  ∀ s : State, s.busy = false →
    (s.ReadyFor .defilter → ∃ t, exec .defilter s = .next t ∧ t = s.accepted .defilter (.dfHdr 0) ∧
      t.busy = true ∧ t.phase = 1) ∧
    (s.ReadyFor .flip → ∃ t, exec .flip s = .next t ∧ t = s.accepted .flip (.flByte 0 0) ∧
      t.busy = true ∧ t.phase = 2) ∧
    (s.ReadyFor .convert → ∃ t, exec .convert s = .next t ∧ t = s.accepted .convert (.dfHdr 0) ∧
      t.busy = true ∧ t.phase = 1)

/-- The format check: the first illegal field is reported, for all three commands, and only STATUS and ERR_* change
(42_commands.md R163, R161). -/
def Obligations.FormatCheckReportsFirstField : Prop :=
  ∀ (s : State) (c : Command), s.busy = false →
    (s.format.bitDepth ≠ 8#8 →
      exec c.instr s = .next (s.rejected .unsupportedFormat 0xFFFFFFFF#32 1#32)) ∧
    (s.format.bitDepth = 8#8 → s.format.colorType ≠ 6#8 →
      exec c.instr s = .next (s.rejected .unsupportedFormat 0xFFFFFFFF#32 2#32)) ∧
    (s.format.bitDepth = 8#8 → s.format.colorType = 6#8 → s.format.compression ≠ 0#8 →
      exec c.instr s = .next (s.rejected .unsupportedFormat 0xFFFFFFFF#32 3#32)) ∧
    (s.format.bitDepth = 8#8 → s.format.colorType = 6#8 → s.format.compression = 0#8 →
      s.format.filterMethod ≠ 0#8 →
      exec c.instr s = .next (s.rejected .unsupportedFormat 0xFFFFFFFF#32 4#32)) ∧
    (s.format.bitDepth = 8#8 → s.format.colorType = 6#8 → s.format.compression = 0#8 →
      s.format.filterMethod = 0#8 → s.interlace ≠ 0#8 →
      exec c.instr s = .next (s.rejected .unsupportedFormat 0xFFFFFFFF#32 5#32))

/-- The geometry and region check: of the table's sub-checks the first that fails is reported, over the integers, and only
STATUS and ERR_* change (42_commands.md R164). -/
def Obligations.RegionCheckReportsFirstSubCheck : Prop :=
  ∀ (s : State) (c : Command) (n : Nat), s.busy = false → s.FormatLegal → 1 ≤ n → n ≤ 8 →
    s.subCheckFails c n → (∀ m, 1 ≤ m → m < n → ¬s.subCheckFails c m) →
    exec c.instr s = .next (s.rejected .configError 0xFFFFFFFF#32 (BitVec.ofNat 32 n))

/-- The stream-length check: DEFILTER and CONVERT report the smaller length as offset when IN_LEN is not IN_EXPECT; FLIP does
not read IN_LEN (42_commands.md R165). -/
def Obligations.LengthCheckReportsMismatch : Prop :=
  ∀ s : State, s.busy = false → s.FormatLegal →
    (∀ c : Command, c ≠ .flip → (∀ m, ¬s.subCheckFails c m) →
      s.inLen.toNat ≠ s.height.toNat * (1 + 4 * s.width.toNat) →
      exec c.instr s = .next (s.rejected .sizeMismatch
        (BitVec.ofNat 32 (min s.inLen.toNat (s.height.toNat * (1 + 4 * s.width.toNat)))) 0#32)) ∧
    ((∀ m, ¬s.subCheckFails .flip m) → exec .flip s = .next (s.accepted .flip (.flByte 0 0)))

/-- A word with RSV non-zero or OP 4 to 15, written to CMD while idle, raises IllegalCommand with the word as info, and only
STATUS and ERR_* change (42_commands.md R162). -/
def Obligations.IllegalWordRaisesIllegalCommand : Prop :=
  ∀ (s : State) (w : Word) (rest : List Input),
    s.busy = false → s.hostNext (.regWrite 1#6 w) rest →
    (w.extractLsb' 4 28 ≠ 0#28 ∨ 4 ≤ (w.extractLsb' 0 4).toNat) →
    step s = .next ((s.withInputs rest).clearResponse.rejected .illegalCommand 0xFFFFFFFF#32 w)

/-! ## Status, interrupt, registers -/

/-- What the STATUS word and ERR_CODE, ERR_OFFSET and ERR_INFO read as: STATUS bit by bit (10_state.md R29), ERR_CODE the
number of 60_exceptions.md R200's table (10_state.md R31), and each of ERR_OFFSET and ERR_INFO at its own offset, 0x10 and 0x14
(10_state.md R26, R32, R33). -/
def Obligations.StatusAndErrorRegisterReads : Prop :=
  ∀ s : State,
    (s.readPort 2#6).getLsbD 0 = decide (s.es ≠ .idle) ∧
    (s.readPort 2#6).getLsbD 1 = s.done ∧
    (s.readPort 2#6).getLsbD 2 = s.error ∧
    (s.readPort 2#6).getLsbD 3 = false ∧
    ((s.readPort 2#6).extractLsb' 4 2).toNat =
      (match s.es with | .idle => 0 | .dfHdr _ => 1 | .dfByte _ _ => 1 | .flByte _ _ => 2) ∧
    (s.readPort 2#6).extractLsb' 6 2 = 0#2 ∧
    (s.readPort 2#6).getLsbD 8 = s.irq ∧
    (s.readPort 2#6).extractLsb' 9 23 = 0#23 ∧
    (s.errCode = .none → s.readPort 3#6 = 0#32) ∧
    (s.errCode = .invalidFilterType → s.readPort 3#6 = 1#32) ∧
    (s.errCode = .sizeMismatch → s.readPort 3#6 = 2#32) ∧
    (s.errCode = .unsupportedFormat → s.readPort 3#6 = 3#32) ∧
    (s.errCode = .configError → s.readPort 3#6 = 4#32) ∧
    (s.errCode = .illegalCommand → s.readPort 3#6 = 5#32) ∧
    s.readPort 4#6 = s.errOffset ∧
    s.readPort 5#6 = s.errInfo

/-- A write of v to STATUS, busy or not: bit 1 clears DONE, bit 2 clears ERROR, nothing else changes, ERR_* included
(10_state.md R30). -/
def Obligations.StatusWriteClearsOnly : Prop :=
  ∀ (s : State) (v : Word) (rest : List Input), s.hostNext (.regWrite 2#6 v) rest →
    step s = .next { s with
      inputs := rest, response := none
      done := (if v.getLsbD 1 = true then false else s.done)
      error := (if v.getLsbD 2 = true then false else s.error) }

/-- The interrupt level is DONE and DONE_IE, or ERROR and ERR_IE; STATUS.IRQ reads it; a write to INT_EN takes effect at all
times and reads back with its reserved bits 0; clearing both status bits, clearing both enables, or accepting a command lowers
the level; a rejected command raises it exactly under ERR_IE (60_exceptions.md R210, 10_state.md R34). -/
def Obligations.InterruptFollowsStatusAndEnables : Prop :=
  ∀ s : State,
    (s.irq = true ↔ (s.done = true ∧ s.doneIE = true) ∨ (s.error = true ∧ s.errIE = true)) ∧
    (s.readPort 2#6).getLsbD 8 = s.irq ∧
    (∀ (v : Word) (rest : List Input), s.hostNext (.regWrite 6#6 v) rest →
      ∃ t, step s = .next t ∧
        t = { s with inputs := rest, response := none, doneIE := v.getLsbD 0, errIE := v.getLsbD 1 } ∧
        t.readPort 6#6 = v &&& 3#32) ∧
    (s.ackStatus 6#32).irq = false ∧
    (s.setIntEn 0#32).irq = false ∧
    (∀ c es, (s.accepted c es).irq = false) ∧
    (∀ code o i, (s.rejected code o i).irq = s.errIE)

/-- While BUSY = 1 a write to WIDTH, HEIGHT, FORMAT, INTERLACE, IN_BASE, IN_LEN, RAW_BASE, OUT_BASE or CMD is dropped, writes
to STATUS and INT_EN take effect, and a register read returns the current value (10_state.md R47). -/
def Obligations.BusyDropsConfigurationWrites : Prop :=
  ∀ (s : State) (v : Word) (rest : List Input), s.busy = true →
    (∀ i ∈ [1#6, 7#6, 8#6, 9#6, 10#6, 11#6, 12#6, 13#6, 14#6], s.hostNext (.regWrite i v) rest →
      step s = .next (s.withInputs rest).clearResponse) ∧
    (s.hostNext (.regWrite 2#6 v) rest → step s = .next ((s.withInputs rest).clearResponse.ackStatus v)) ∧
    (s.hostNext (.regWrite 6#6 v) rest → step s = .next ((s.withInputs rest).clearResponse.setIntEn v)) ∧
    (∀ i, s.hostNext (.regRead i) rest →
      ∃ t, step s = .next t ∧ t.response = some (.reg (s.readPort i)))

/-- While idle a configuration register takes the value written, alone, and reads it back; INTERLACE keeps bits [7:0] and
FORMAT all 32 (10_state.md R35 to R42). -/
def Obligations.IdleConfigurationWritesReadBack : Prop :=
  ∀ (s : State) (v : Word) (rest : List Input), s.busy = false →
    (s.hostNext (.regWrite 7#6 v) rest →
      step s = .next { s with inputs := rest, response := none, width := v }) ∧
    (s.hostNext (.regWrite 8#6 v) rest →
      step s = .next { s with inputs := rest, response := none, height := v }) ∧
    (s.hostNext (.regWrite 11#6 v) rest →
      step s = .next { s with inputs := rest, response := none, inBase := v }) ∧
    (s.hostNext (.regWrite 12#6 v) rest →
      step s = .next { s with inputs := rest, response := none, inLen := v }) ∧
    (s.hostNext (.regWrite 13#6 v) rest →
      step s = .next { s with inputs := rest, response := none, rawBase := v }) ∧
    (s.hostNext (.regWrite 14#6 v) rest →
      step s = .next { s with inputs := rest, response := none, outBase := v }) ∧
    (s.hostNext (.regWrite 9#6 v) rest →
      ∃ t, step s = .next t ∧ t = { s with inputs := rest, response := none, format := t.format } ∧
        t.readPort 9#6 = v ∧ t.format.bitDepth = v.extractLsb' 0 8 ∧ t.format.colorType = v.extractLsb' 8 8 ∧
        t.format.compression = v.extractLsb' 16 8 ∧ t.format.filterMethod = v.extractLsb' 24 8) ∧
    (s.hostNext (.regWrite 10#6 v) rest →
      ∃ t, step s = .next t ∧ t = { s with inputs := rest, response := none, interlace := t.interlace } ∧
        t.readPort 10#6 = v &&& 0xFF#32) ∧
    s.readPort 7#6 = s.width ∧ s.readPort 8#6 = s.height ∧ s.readPort 11#6 = s.inBase ∧ s.readPort 12#6 = s.inLen ∧
    s.readPort 13#6 = s.rawBase ∧ s.readPort 14#6 = s.outBase

/-- ID, BPP and the four channel masks read their constants in every state, CMD and unmapped offsets 0x58 to 0xFC read 0;
writes to read-only registers and unmapped offsets are ignored; the masks pick the channels of a little-endian pixel word, byte
0 red to byte 3 alpha (10_state.md R25, R26, R27, R43, R46; 41_layout.md R146, R147). -/
def Obligations.FixedRegistersAndChannelMasks : Prop :=
  (∀ s : State,
    s.readPort 0#6 = 0x504E4744#32 ∧ s.readPort 1#6 = 0#32 ∧ s.readPort 15#6 = 4#32 ∧
    s.readPort 18#6 = 0x000000FF#32 ∧ s.readPort 19#6 = 0x0000FF00#32 ∧
    s.readPort 20#6 = 0x00FF0000#32 ∧ s.readPort 21#6 = 0xFF000000#32 ∧
    (∀ i : RegIndex, 22 ≤ i.toNat → s.readPort i = 0#32) ∧
    ∀ (i : RegIndex) (v : Word) (rest : List Input),
      (i.toNat = 0 ∨ i.toNat = 3 ∨ i.toNat = 4 ∨ i.toNat = 5 ∨ 15 ≤ i.toNat) →
      s.hostNext (.regWrite i v) rest → step s = .next (s.withInputs rest).clearResponse) ∧
  (∀ b0 b1 b2 b3 : Byte,
    pixelWord b0 b1 b2 b3 &&& 0x000000FF#32 = b0.setWidth 32 ∧
    (pixelWord b0 b1 b2 b3 &&& 0x0000FF00#32) >>> 8 = b1.setWidth 32 ∧
    (pixelWord b0 b1 b2 b3 &&& 0x00FF0000#32) >>> 16 = b2.setWidth 32 ∧
    (pixelWord b0 b1 b2 b3 &&& 0xFF000000#32) >>> 24 = b3.setWidth 32)

/-- IN_SIZE and RAW_SIZE read the sizes of the current WIDTH and HEIGHT, saturating (10_state.md R44, R45). -/
def Obligations.SizeViewsSaturate : Prop :=
  ∀ s : State,
    (s.readPort 16#6).toNat = min (s.height.toNat * (1 + 4 * s.width.toNat)) 0xFFFFFFFF ∧
    (s.readPort 17#6).toNat = min (s.height.toNat * (4 * s.width.toNat)) 0xFFFFFFFF

/-- The host reads no more of the engine than BUSY and PHASE: register reads do not see ES beyond its phase, nor OPL, FT, GEOM,
BUF or the draws (10_state.md R23). -/
def Obligations.RegisterReadsHideTheEngine : Prop :=
  ∀ (s t : State) (i : RegIndex),
    t = { s with
          es := t.es, opl := t.opl, ft := t.ft, geom := t.geom, buf := t.buf, bufEpoch := t.bufEpoch
          draws := t.draws, window := t.window, inReset := t.inReset, inputs := t.inputs
          response := t.response, params := t.params } →
    t.phase = s.phase → t.readPort i = s.readPort i

/-! ## The ports and the ownership window -/

/-- The BUF port outside the ownership window, busy or not: a read returns BUF[a], or 0 at or above MEM_SIZE; a write sets
BUF[a] alone, and has no effect at or above MEM_SIZE (20_memory.md R62). -/
def Obligations.BufPortReadsAndWritesOneByte : Prop :=
  ∀ (s : State) (a : Word) (v : Byte) (rest : List Input),
    (s.hostNext (.memRead a) rest → s.readOwned a.toNat = false →
      (a.toNat < s.memSize →
        step s = .next { s with inputs := rest, response := some (.mem (s.bufByte a.toNat)) }) ∧
      (s.memSize ≤ a.toNat → step s = .next { s with inputs := rest, response := some (.mem 0#8) })) ∧
    (s.hostNext (.memWrite a v) rest → s.writeOwned a.toNat = false →
      (a.toNat < s.memSize →
        ∃ t, step s = .next t ∧ t = { s with inputs := rest, response := none, buf := t.buf } ∧
          t.bufByte a.toNat = v ∧ ∀ b, b ≠ a.toNat → t.bufByte b = s.bufByte b) ∧
      (s.memSize ≤ a.toNat → step s = .next { s with inputs := rest, response := none }))

/-- An open ownership window, whether its command still runs, has completed or has ended in an error: a host write to a byte of
a region the command reads or writes, and a host read of a byte of a region it writes, is refused. While a command runs, from any
state of the invariant, the open window is that command's, over the registers' geometry (70_reset_and_hazards.md R232). -/
def Obligations.OpenWindowOwnsItsRegions : Prop :=
  (∀ (s : State) (c : Claim) (a : Word) (v : Byte) (rest : List Input), s.window = some c →
    (s.hostNext (.memWrite a v) rest →
      ((c.cmd ≠ .flip ∧ c.geom.inBase.toNat ≤ a.toNat ∧
          a.toNat < c.geom.inBase.toNat + c.geom.height.toNat * (1 + 4 * c.geom.width.toNat)) ∨
       (c.geom.rawBase.toNat ≤ a.toNat ∧
          a.toNat < c.geom.rawBase.toNat + c.geom.height.toNat * (4 * c.geom.width.toNat)) ∨
       (c.cmd ≠ .defilter ∧ c.geom.outBase.toNat ≤ a.toNat ∧
          a.toNat < c.geom.outBase.toNat + c.geom.height.toNat * (4 * c.geom.width.toNat))) →
      step s = .refused (.ownedWrite a)) ∧
    (s.hostNext (.memRead a) rest →
      ((c.cmd ≠ .flip ∧ c.geom.rawBase.toNat ≤ a.toNat ∧
          a.toNat < c.geom.rawBase.toNat + c.geom.height.toNat * (4 * c.geom.width.toNat)) ∨
       (c.cmd ≠ .defilter ∧ c.geom.outBase.toNat ≤ a.toNat ∧
          a.toNat < c.geom.outBase.toNat + c.geom.height.toNat * (4 * c.geom.width.toNat))) →
      step s = .refused (.ownedRead a))) ∧
  (∀ s : State, s.Inv → s.busy = true →
    s.window = some
      { cmd := s.opl
        geom := { width := s.width, height := s.height, inBase := s.inBase, rawBase := s.rawBase, outBase := s.outBase } })

/-- While a command runs, from any state of the invariant, and whatever commands ended before it unread: a host access to a byte
in none of the running command's regions acts as on an idle block, a read returning BUF[a], or 0 at or above MEM_SIZE, a write
setting BUF[a] alone, or nothing at or above MEM_SIZE (20_memory.md R73, R62). -/
def Obligations.RunningCommandOwnsNothingElse : Prop :=
  ∀ (s : State) (a : Word) (v : Byte) (rest : List Input), s.Inv → s.busy = true →
    (s.opl ≠ .flip → ¬(s.inBase.toNat ≤ a.toNat ∧
      a.toNat < s.inBase.toNat + s.height.toNat * (1 + 4 * s.width.toNat))) →
    ¬(s.rawBase.toNat ≤ a.toNat ∧ a.toNat < s.rawBase.toNat + s.height.toNat * (4 * s.width.toNat)) →
    (s.opl ≠ .defilter → ¬(s.outBase.toNat ≤ a.toNat ∧
      a.toNat < s.outBase.toNat + s.height.toNat * (4 * s.width.toNat))) →
    (s.hostNext (.memRead a) rest →
      step s = .next { s with
        inputs := rest
        response := some (.mem (if a.toNat < s.memSize then s.bufByte a.toNat else 0#8)) }) ∧
    (s.hostNext (.memWrite a v) rest →
      ∃ t, step s = .next t ∧ t = { s with inputs := rest, response := none, buf := t.buf } ∧
        (a.toNat < s.memSize → t.bufByte a.toNat = v) ∧
        ∀ b, b ≠ a.toNat ∨ s.memSize ≤ a.toNat → t.bufByte b = s.bufByte b)

/-- The ownership window changes only where an accepted command opens its own, where the host reads STATUS with BUSY = 0, and at
reset; the last two end it (70_reset_and_hazards.md R232). THE MODEL'S READING, log entry 4: that a reset ends the window
(DEDUCED from R230), that a newly accepted command's window stands in place of the earlier one (DEDUCED from 20_memory.md R73),
and that a look at the interrupt line ends none (R231, R232). -/
def Obligations.WindowChangesOnlyAtAcceptanceStatusReadOrReset : Prop :=
  ∀ s t : State, step s = .next t →
    t.window = s.window ∨
    (s.busy = false ∧ t.busy = true ∧ t.window = some { cmd := t.opl, geom := t.geom } ∧
      ∃ w rest, s.hostNext (.regWrite 1#6 w) rest) ∨
    (s.busy = false ∧ t.window = none ∧ ∃ rest, s.hostNext (.regRead 2#6) rest) ∨
    (t.window = none ∧ ∃ rest, s.inputs = .resetAssert :: rest)

/-- The STATUS read that sees BUSY = 0 hands every byte of BUF back to the host: a BUF read after it returns the byte the
engine left (20_memory.md R72). -/
def Obligations.StatusReadReleasesBuf : Prop :=
  ∀ (s : State) (a : Word) (rest : List Input), s.busy = false → a.toNat < s.memSize →
    s.hostNext (.regRead 2#6) (.host (.memRead a) :: rest) →
    ∃ t, step s = .next t ∧ t.response = some (.reg (s.readPort 2#6)) ∧ t.window = none ∧
      ∃ u, step t = .next u ∧ u.response = some (.mem (s.bufByte a.toNat))

/-- A look at the interrupt line returns its level and changes nothing else: it ends no window, which is the model's reading of
20_memory.md R72 beside 70_reset_and_hazards.md R231 and R232, log entry 4. A host that takes the interrupt as its signal and then
reads STATUS, as R231 has it, sees at every BUF address the byte the engine left (R72). -/
def Obligations.InterruptThenStatusReleasesBuf : Prop :=
  ∀ (s : State) (rest : List Input), s.hostNext .irqSample rest →
    step s = .next { s with inputs := rest, response := some (.irq s.irq) } ∧
    ∀ (a : Word) (more : List Input), s.Inv → s.irq = true → a.toNat < s.memSize →
      rest = .host (.regRead 2#6) :: .host (.memRead a) :: more →
      runSteps 3 s = .next { s with inputs := more, response := some (.mem (s.bufByte a.toNat)), window := none }

/-- A register read returns the register's value and changes nothing but the host's own side: no register, no latch, no BUF
byte (20_memory.md R67). -/
def Obligations.RegisterReadsHaveNoSideEffect : Prop :=
  ∀ (s : State) (i : RegIndex) (rest : List Input), s.hostNext (.regRead i) rest →
    ∃ t, step s = .next t ∧
      t = { s with inputs := rest, response := some (.reg (s.readPort i)), window := t.window } ∧
      (i ≠ 2#6 ∨ s.busy = true → t.window = s.window)

/-! ## Reset -/

/-- The reset state holds every value of 10_state.md R49, read at the register port, and no interrupt. -/
def Obligations.ResetStateReadsResetValues : Prop :=
  State.reset.es = .idle ∧ State.reset.irq = false ∧ State.reset.doneIE = false ∧ State.reset.errIE = false ∧
  State.reset.readPort 0#6 = 0x504E4744#32 ∧ State.reset.readPort 2#6 = 0#32 ∧ State.reset.readPort 3#6 = 0#32 ∧
  State.reset.readPort 4#6 = 0#32 ∧ State.reset.readPort 5#6 = 0#32 ∧ State.reset.readPort 6#6 = 0#32 ∧
  State.reset.readPort 7#6 = 0#32 ∧ State.reset.readPort 8#6 = 0#32 ∧ State.reset.readPort 9#6 = 0x00000608#32 ∧
  State.reset.readPort 10#6 = 0#32 ∧ State.reset.readPort 11#6 = 0#32 ∧ State.reset.readPort 12#6 = 0#32 ∧
  State.reset.readPort 13#6 = 0#32 ∧ State.reset.readPort 14#6 = 0#32 ∧ State.reset.readPort 15#6 = 4#32 ∧
  State.reset.readPort 16#6 = 0#32 ∧ State.reset.readPort 17#6 = 0#32 ∧ State.reset.readPort 18#6 = 0x000000FF#32 ∧
  State.reset.readPort 19#6 = 0x0000FF00#32 ∧ State.reset.readPort 20#6 = 0x00FF0000#32 ∧
  State.reset.readPort 21#6 = 0xFF000000#32

/-- Asserting reset in any state: ES IDLE, every register reads as in the reset state, the interrupt down, every BUF byte a
fresh draw; while it is asserted no host access and no engine step takes effect (70_reset_and_hazards.md R230, R236). THE MODEL'S
CHOICE: that reset ends the ownership window (log entry 4, DEDUCED); that it keeps the parameters and the coming inputs, that an
access made while it is asserted is used up, and that its release changes the level alone (log entry 10, DEDUCED and DESIGN
CHOICE). -/
def Obligations.ResetInputResetsAndHolds : Prop :=
  ∀ (s : State) (rest : List Input),
    (s.inputs = .resetAssert :: rest →
      ∃ t, step s = .next t ∧ t.es = .idle ∧ t.irq = false ∧ (∀ i, t.readPort i = State.reset.readPort i) ∧
        (∀ a, t.bufByte a = Config.draw s.draws a) ∧ t.inReset = true ∧ t.window = none ∧ t.params = s.params ∧
        t.inputs = rest) ∧
    (s.inReset = true →
      (∀ op, s.inputs = .host op :: rest → step s = .next (s.withInputs rest).clearResponse) ∧
      (s.inputs = .engine :: rest → step s = .next (s.withInputs rest)) ∧
      (s.inputs = [] → step s = .next s) ∧
      (s.inputs = .resetRelease :: rest → step s = .next { s with inputs := rest, inReset := false }))

/-! ## The invariant and whole-machine rules -/

/-- The invariant holds at reset. -/
def Obligations.ResetMeetsInvariant : Prop := State.reset.Inv

/-- Every step from a state of the invariant ends in one, whoever moves (10_state.md R22, R23, R29, R31, R47; 42_commands.md
R164; 20_memory.md R60; 70_reset_and_hazards.md R230, R232). -/
def Obligations.StepKeepsInvariant : Prop := ∀ s t : State, s.Inv → step s = .next t → t.Inv

/-- From a state of the invariant no step faults: the engine never accesses an address at or above MEM_SIZE (20_memory.md
R63). -/
def Obligations.EngineNeverLeavesBuf : Prop := ∀ (s : State) (f : Fault), s.Inv → step s ≠ .fault f

/-- In every state, reachable or not, the only refusals of a step are host accesses to an open window's bytes
(70_reset_and_hazards.md R232). -/
def Obligations.StepRefusesOnlyOwnedAccesses : Prop :=
  ∀ (s : State) (q : Refusal), step s = .refused q →
    (∃ a v rest, s.hostNext (.memWrite a v) rest ∧ s.writeOwned a.toNat = true ∧ q = .ownedWrite a) ∨
    (∃ a rest, s.hostNext (.memRead a) rest ∧ s.readOwned a.toNat = true ∧ q = .ownedRead a)

/-- Whatever moves, short of reset, a running command's geometry, format, length, latched command and latched geometry stay
as they are until it ends, and no step changes MEM_SIZE or REG_BASE (10_state.md R47, 70_reset_and_hazards.md R233). -/
def Obligations.BusyKeepsConfiguration : Prop :=
  ∀ s t : State, step s = .next t →
    t.params = s.params ∧
    (s.busy = true → (∀ rest, s.inputs ≠ .resetAssert :: rest) →
      t.width = s.width ∧ t.height = s.height ∧ t.format = s.format ∧ t.interlace = s.interlace ∧
      t.inBase = s.inBase ∧ t.inLen = s.inLen ∧ t.rawBase = s.rawBase ∧ t.outBase = s.outBase ∧
      t.opl = s.opl ∧ t.geom = s.geom)

/-- A running command stops only by completion, by InvalidFilterType, or by reset (42_commands.md R174). -/
def Obligations.RunEndsOnlyThreeWays : Prop :=
  ∀ s t : State, step s = .next t → s.busy = true → t.busy = false →
    (∃ rest, s.engineNext rest ∧ t.done = true ∧ t.errCode = s.errCode) ∨
    (∃ rest, s.engineNext rest ∧ t.error = true ∧ t.errCode = .invalidFilterType) ∨
    (∃ rest, s.inputs = .resetAssert :: rest)

/-- The block becomes busy only by a CMD write of 1, 2 or 3 whose every check passes: when ES is IDLE the engine takes no
steps (42_commands.md R160, R166; 60_exceptions.md R225). -/
def Obligations.BusyBeginsOnlyByAcceptedCommand : Prop :=
  ∀ s t : State, step s = .next t → s.busy = false → t.busy = true →
    ∃ (c : Command) (w : Word) (rest : List Input),
      s.hostNext (.regWrite 1#6 w) rest ∧ encode c.instr = .cmd w ∧ s.ReadyFor c ∧ t.opl = c

/-- An engine step changes no BUF byte outside the running command's write regions, and none of IN (20_memory.md R73, R77;
60_exceptions.md R203). -/
def Obligations.EngineWritesOnlyItsWriteRegions : Prop :=
  ∀ (s t : State) (rest : List Input), s.Inv → s.engineNext rest → step s = .next t → ∀ a,
    (s.opl.writesAt s.geom a = false → t.bufByte a = s.bufByte a) ∧
    (s.busy = true → s.opl ≠ .flip → s.geom.inBase.toNat ≤ a → a < s.geom.inBase.toNat + s.geom.inExpect →
      t.bufByte a = s.bufByte a)

/-- Progress: from a busy state of the invariant each engine step leaves exactly one step fewer, or is an InvalidFilterType
that ends the command; at zero the command has ended (42_commands.md R172, R173). -/
def Obligations.EngineStepsCountDown : Prop :=
  ∀ (s : State) (rest : List Input), s.Inv → s.busy = true → s.engineNext rest →
    ∃ t, step s = .next t ∧
      ((t.stepsLeft + 1 = s.stepsLeft ∧ (t.busy = false ↔ t.stepsLeft = 0)) ∨
       (t.busy = false ∧ t.error = true ∧ t.errCode = .invalidFilterType))

/-- A host write outside the window and an engine step can come in either order: the two orders end in the same state
(20_memory.md R73, R74). -/
def Obligations.HostWriteCommutesWithEngineStep : Prop :=
  ∀ (s t : State) (a : Word) (v : Byte) (rest : List Input),
    s.Inv → s.inReset = false → s.busy = true → s.writeOwned a.toNat = false →
    runSteps 2 (s.withInputs (.engine :: .host (.memWrite a v) :: rest)) = .next t →
    runSteps 2 (s.withInputs (.host (.memWrite a v) :: .engine :: rest)) = .next t

/-! ## Whole commands -/

/-- FLIP from any idle state in which it is ready: accepted, then after exactly RAW_BYTES engine steps it has completed, OUT
holds RAW with its rows reversed, and every BUF byte outside OUT, RAW included, is unchanged (41_layout.md R140, R141;
42_commands.md R169, R170, R172). -/
def Obligations.FlipReversesRows : Prop :=
  ∀ s : State, s.busy = false → s.engineAlone → s.ReadyFor .flip →
    ∃ t u, exec .flip s = .next t ∧ runSteps s.regGeom.rawBytes t = .next u ∧
      u.es = .idle ∧ u.done = true ∧ u.error = false ∧ u.errCode = .none ∧
      Flipped s.regGeom s u ∧
      ∀ a, ¬(s.outBase.toNat ≤ a ∧ a < s.outBase.toNat + s.regGeom.rawBytes) → u.bufByte a = s.bufByte a

/-- DEFILTER from any idle state in which it is ready and every row's type is legal: accepted, then after exactly IN_EXPECT
engine steps it has completed, RAW holds the reconstruction of IN, and every BUF byte outside RAW, IN included, is unchanged
(40_defilter.md R111; 42_commands.md R168, R170, R172). -/
def Obligations.DefilterReconstructsImage : Prop :=
  ∀ s : State, s.busy = false → s.engineAlone → s.ReadyFor .defilter → s.RowsLegal s.regGeom →
    ∃ t u, exec .defilter s = .next t ∧ runSteps s.regGeom.inExpect t = .next u ∧
      u.es = .idle ∧ u.done = true ∧ u.error = false ∧ u.errCode = .none ∧ u.geom = s.regGeom ∧
      u.Defiltered ∧
      ∀ a, ¬(s.rawBase.toNat ≤ a ∧ a < s.rawBase.toNat + s.regGeom.rawBytes) → u.bufByte a = s.bufByte a

/-- CONVERT from any idle state in which it is ready and every row's type is legal: after exactly IN_EXPECT + RAW_BYTES engine
steps it has completed, RAW holds the reconstruction of IN and OUT that RAW with its rows reversed, every other byte
unchanged (42_commands.md R171, R172; 41_layout.md R148). -/
def Obligations.ConvertReconstructsAndFlips : Prop :=
  ∀ s : State, s.busy = false → s.engineAlone → s.ReadyFor .convert → s.RowsLegal s.regGeom →
    ∃ t u, exec .convert s = .next t ∧
      runSteps (s.regGeom.inExpect + s.regGeom.rawBytes) t = .next u ∧
      u.es = .idle ∧ u.done = true ∧ u.error = false ∧ u.errCode = .none ∧ u.geom = s.regGeom ∧
      u.Defiltered ∧ Flipped s.regGeom u u ∧
      ∀ a, ¬(s.rawBase.toNat ≤ a ∧ a < s.rawBase.toNat + s.regGeom.rawBytes) →
        ¬(s.outBase.toNat ≤ a ∧ a < s.outBase.toNat + s.regGeom.rawBytes) → u.bufByte a = s.bufByte a

/-- DEFILTER or CONVERT with an illegal filter byte first in row r: after exactly r*L + 1 engine steps it has ended with
InvalidFilterType, offset r*L, the byte as info, DONE 0, and every byte outside the write regions unchanged (42_commands.md
R172; 60_exceptions.md R200 to R203). -/
def Obligations.FirstIllegalRowEndsTheRun : Prop :=
  ∀ (s : State) (c : Command) (r : Nat), c ≠ .flip → s.busy = false → s.engineAlone → s.ReadyFor c →
    r < s.regGeom.rows → 4 < (s.bufByte (s.regGeom.ftypeAddr r)).toNat →
    (∀ q, q < r → (s.bufByte (s.regGeom.ftypeAddr q)).toNat ≤ 4) →
    ∃ t u, exec c.instr s = .next t ∧ runSteps (r * s.regGeom.lineBytes + 1) t = .next u ∧
      u.es = .idle ∧ u.error = true ∧ u.done = false ∧ u.errCode = .invalidFilterType ∧
      u.errOffset = BitVec.ofNat 32 (r * s.regGeom.lineBytes) ∧
      u.errInfo = (s.bufByte (s.regGeom.ftypeAddr r)).setWidth 32 ∧
      ∀ a, c.writesAt s.regGeom a = false → u.bufByte a = s.bufByte a

/-- Round trip: whatever image P and row types, DEFILTER of P's filtered stream leaves P in RAW (40_defilter.md R112). -/
def Obligations.DefilterInvertsForwardFilter : Prop :=
  ∀ (s : State) (ty : Nat → FilterType) (P : Nat → Nat → Byte),
    s.busy = false → s.engineAlone → s.ReadyFor .defilter → s.StreamOf s.regGeom ty P →
    ∃ t u, exec .defilter s = .next t ∧ runSteps s.regGeom.inExpect t = .next u ∧ u.done = true ∧
      ∀ r col, r < s.regGeom.rows → col < s.regGeom.rowBytes → u.bufByte (s.regGeom.rawAddr r col) = P r col

/-- DEFILTER's result depends on the IN bytes, WIDTH and HEIGHT alone: two machines that agree on these, wherever their regions
lie and whatever else they hold, end with the same RAW (40_defilter.md R111, R113). -/
def Obligations.DefilterDependsOnStreamOnly : Prop :=
  ∀ s₁ s₂ t₁ t₂ u₁ u₂ : State,
    s₁.busy = false → s₁.engineAlone → s₁.ReadyFor .defilter → s₁.RowsLegal s₁.regGeom →
    s₂.busy = false → s₂.engineAlone → s₂.ReadyFor .defilter →
    s₁.width = s₂.width → s₁.height = s₂.height →
    (∀ n, n < s₁.regGeom.inExpect → s₁.bufByte (s₁.inBase.toNat + n) = s₂.bufByte (s₂.inBase.toNat + n)) →
    exec .defilter s₁ = .next t₁ → runSteps s₁.regGeom.inExpect t₁ = .next u₁ →
    exec .defilter s₂ = .next t₂ → runSteps s₁.regGeom.inExpect t₂ = .next u₂ →
    ∀ n, n < s₁.regGeom.rawBytes → u₁.bufByte (s₁.rawBase.toNat + n) = u₂.bufByte (s₂.rawBase.toNat + n)

/-- Involution: a FLIP whose RAW holds an earlier FLIP's OUT, with the same WIDTH and HEIGHT, leaves the earlier RAW in its OUT
(41_layout.md R144). -/
def Obligations.FlipTwiceIsIdentity : Prop :=
  ∀ s₁ s₂ t₁ t₂ u₁ u₂ : State,
    s₁.busy = false → s₁.engineAlone → s₁.ReadyFor .flip → s₂.busy = false → s₂.engineAlone → s₂.ReadyFor .flip →
    s₁.width = s₂.width → s₁.height = s₂.height →
    exec .flip s₁ = .next t₁ → runSteps s₁.regGeom.rawBytes t₁ = .next u₁ →
    (∀ n, n < s₁.regGeom.rawBytes → s₂.bufByte (s₂.rawBase.toNat + n) = u₁.bufByte (s₁.outBase.toNat + n)) →
    exec .flip s₂ = .next t₂ → runSteps s₁.regGeom.rawBytes t₂ = .next u₂ →
    ∀ n, n < s₁.regGeom.rawBytes → u₂.bufByte (s₂.outBase.toNat + n) = s₁.bufByte (s₁.rawBase.toNat + n)
end

