-- ==== Sys2Proof/Laws/State.lean ====
section
/-! SUPPORT. The small lemmas of State's named updates: one per field per update. -/

namespace Sys2Proof.Machine

variable (s : State)

/-! ### clearStatus -/

@[simp] theorem clearStatus_params : s.clearStatus.params = s.params := rfl
@[simp] theorem clearStatus_es : s.clearStatus.es = s.es := rfl
@[simp] theorem clearStatus_opl : s.clearStatus.opl = s.opl := rfl
@[simp] theorem clearStatus_ft : s.clearStatus.ft = s.ft := rfl
@[simp] theorem clearStatus_geom : s.clearStatus.geom = s.geom := rfl
@[simp] theorem clearStatus_done : s.clearStatus.done = false := rfl
@[simp] theorem clearStatus_error : s.clearStatus.error = false := rfl
@[simp] theorem clearStatus_errCode : s.clearStatus.errCode = .none := rfl
@[simp] theorem clearStatus_errOffset : s.clearStatus.errOffset = 0#32 := rfl
@[simp] theorem clearStatus_errInfo : s.clearStatus.errInfo = 0#32 := rfl
@[simp] theorem clearStatus_doneIE : s.clearStatus.doneIE = s.doneIE := rfl
@[simp] theorem clearStatus_errIE : s.clearStatus.errIE = s.errIE := rfl
@[simp] theorem clearStatus_width : s.clearStatus.width = s.width := rfl
@[simp] theorem clearStatus_height : s.clearStatus.height = s.height := rfl
@[simp] theorem clearStatus_format : s.clearStatus.format = s.format := rfl
@[simp] theorem clearStatus_interlace : s.clearStatus.interlace = s.interlace := rfl
@[simp] theorem clearStatus_inBase : s.clearStatus.inBase = s.inBase := rfl
@[simp] theorem clearStatus_inLen : s.clearStatus.inLen = s.inLen := rfl
@[simp] theorem clearStatus_rawBase : s.clearStatus.rawBase = s.rawBase := rfl
@[simp] theorem clearStatus_outBase : s.clearStatus.outBase = s.outBase := rfl
@[simp] theorem clearStatus_buf : s.clearStatus.buf = s.buf := rfl
@[simp] theorem clearStatus_bufEpoch : s.clearStatus.bufEpoch = s.bufEpoch := rfl
@[simp] theorem clearStatus_draws : s.clearStatus.draws = s.draws := rfl
@[simp] theorem clearStatus_window : s.clearStatus.window = s.window := rfl
@[simp] theorem clearStatus_inReset : s.clearStatus.inReset = s.inReset := rfl
@[simp] theorem clearStatus_inputs : s.clearStatus.inputs = s.inputs := rfl
@[simp] theorem clearStatus_response : s.clearStatus.response = s.response := rfl

/-! ### raiseError -/

@[simp] theorem raiseError_params (c : ErrCode) (o i : Word) : (s.raiseError c o i).params = s.params := rfl
@[simp] theorem raiseError_es (c : ErrCode) (o i : Word) : (s.raiseError c o i).es = .idle := rfl
@[simp] theorem raiseError_opl (c : ErrCode) (o i : Word) : (s.raiseError c o i).opl = s.opl := rfl
@[simp] theorem raiseError_ft (c : ErrCode) (o i : Word) : (s.raiseError c o i).ft = s.ft := rfl
@[simp] theorem raiseError_geom (c : ErrCode) (o i : Word) : (s.raiseError c o i).geom = s.geom := rfl
@[simp] theorem raiseError_done (c : ErrCode) (o i : Word) : (s.raiseError c o i).done = s.done := rfl
@[simp] theorem raiseError_error (c : ErrCode) (o i : Word) : (s.raiseError c o i).error = true := rfl
@[simp] theorem raiseError_errCode (c : ErrCode) (o i : Word) : (s.raiseError c o i).errCode = c := rfl
@[simp] theorem raiseError_errOffset (c : ErrCode) (o i : Word) : (s.raiseError c o i).errOffset = o := rfl
@[simp] theorem raiseError_errInfo (c : ErrCode) (o i : Word) : (s.raiseError c o i).errInfo = i := rfl
@[simp] theorem raiseError_doneIE (c : ErrCode) (o i : Word) : (s.raiseError c o i).doneIE = s.doneIE := rfl
@[simp] theorem raiseError_errIE (c : ErrCode) (o i : Word) : (s.raiseError c o i).errIE = s.errIE := rfl
@[simp] theorem raiseError_width (c : ErrCode) (o i : Word) : (s.raiseError c o i).width = s.width := rfl
@[simp] theorem raiseError_height (c : ErrCode) (o i : Word) : (s.raiseError c o i).height = s.height := rfl
@[simp] theorem raiseError_format (c : ErrCode) (o i : Word) : (s.raiseError c o i).format = s.format := rfl
@[simp] theorem raiseError_interlace (c : ErrCode) (o i : Word) : (s.raiseError c o i).interlace = s.interlace := rfl
@[simp] theorem raiseError_inBase (c : ErrCode) (o i : Word) : (s.raiseError c o i).inBase = s.inBase := rfl
@[simp] theorem raiseError_inLen (c : ErrCode) (o i : Word) : (s.raiseError c o i).inLen = s.inLen := rfl
@[simp] theorem raiseError_rawBase (c : ErrCode) (o i : Word) : (s.raiseError c o i).rawBase = s.rawBase := rfl
@[simp] theorem raiseError_outBase (c : ErrCode) (o i : Word) : (s.raiseError c o i).outBase = s.outBase := rfl
@[simp] theorem raiseError_buf (c : ErrCode) (o i : Word) : (s.raiseError c o i).buf = s.buf := rfl
@[simp] theorem raiseError_bufEpoch (c : ErrCode) (o i : Word) : (s.raiseError c o i).bufEpoch = s.bufEpoch := rfl
@[simp] theorem raiseError_draws (c : ErrCode) (o i : Word) : (s.raiseError c o i).draws = s.draws := rfl
@[simp] theorem raiseError_window (c : ErrCode) (o i : Word) : (s.raiseError c o i).window = s.window := rfl
@[simp] theorem raiseError_inReset (c : ErrCode) (o i : Word) : (s.raiseError c o i).inReset = s.inReset := rfl
@[simp] theorem raiseError_inputs (c : ErrCode) (o i : Word) : (s.raiseError c o i).inputs = s.inputs := rfl
@[simp] theorem raiseError_response (c : ErrCode) (o i : Word) : (s.raiseError c o i).response = s.response := rfl

/-! ### complete -/

@[simp] theorem complete_params : s.complete.params = s.params := rfl
@[simp] theorem complete_es : s.complete.es = .idle := rfl
@[simp] theorem complete_opl : s.complete.opl = s.opl := rfl
@[simp] theorem complete_ft : s.complete.ft = s.ft := rfl
@[simp] theorem complete_geom : s.complete.geom = s.geom := rfl
@[simp] theorem complete_done : s.complete.done = true := rfl
@[simp] theorem complete_error : s.complete.error = s.error := rfl
@[simp] theorem complete_errCode : s.complete.errCode = s.errCode := rfl
@[simp] theorem complete_errOffset : s.complete.errOffset = s.errOffset := rfl
@[simp] theorem complete_errInfo : s.complete.errInfo = s.errInfo := rfl
@[simp] theorem complete_doneIE : s.complete.doneIE = s.doneIE := rfl
@[simp] theorem complete_errIE : s.complete.errIE = s.errIE := rfl
@[simp] theorem complete_width : s.complete.width = s.width := rfl
@[simp] theorem complete_height : s.complete.height = s.height := rfl
@[simp] theorem complete_format : s.complete.format = s.format := rfl
@[simp] theorem complete_interlace : s.complete.interlace = s.interlace := rfl
@[simp] theorem complete_inBase : s.complete.inBase = s.inBase := rfl
@[simp] theorem complete_inLen : s.complete.inLen = s.inLen := rfl
@[simp] theorem complete_rawBase : s.complete.rawBase = s.rawBase := rfl
@[simp] theorem complete_outBase : s.complete.outBase = s.outBase := rfl
@[simp] theorem complete_buf : s.complete.buf = s.buf := rfl
@[simp] theorem complete_bufEpoch : s.complete.bufEpoch = s.bufEpoch := rfl
@[simp] theorem complete_draws : s.complete.draws = s.draws := rfl
@[simp] theorem complete_window : s.complete.window = s.window := rfl
@[simp] theorem complete_inReset : s.complete.inReset = s.inReset := rfl
@[simp] theorem complete_inputs : s.complete.inputs = s.inputs := rfl
@[simp] theorem complete_response : s.complete.response = s.response := rfl

/-! ### setBufByte -/

@[simp] theorem setBufByte_params (a : Nat) (v : Byte) : (s.setBufByte a v).params = s.params := rfl
@[simp] theorem setBufByte_es (a : Nat) (v : Byte) : (s.setBufByte a v).es = s.es := rfl
@[simp] theorem setBufByte_opl (a : Nat) (v : Byte) : (s.setBufByte a v).opl = s.opl := rfl
@[simp] theorem setBufByte_ft (a : Nat) (v : Byte) : (s.setBufByte a v).ft = s.ft := rfl
@[simp] theorem setBufByte_geom (a : Nat) (v : Byte) : (s.setBufByte a v).geom = s.geom := rfl
@[simp] theorem setBufByte_done (a : Nat) (v : Byte) : (s.setBufByte a v).done = s.done := rfl
@[simp] theorem setBufByte_error (a : Nat) (v : Byte) : (s.setBufByte a v).error = s.error := rfl
@[simp] theorem setBufByte_errCode (a : Nat) (v : Byte) : (s.setBufByte a v).errCode = s.errCode := rfl
@[simp] theorem setBufByte_errOffset (a : Nat) (v : Byte) : (s.setBufByte a v).errOffset = s.errOffset := rfl
@[simp] theorem setBufByte_errInfo (a : Nat) (v : Byte) : (s.setBufByte a v).errInfo = s.errInfo := rfl
@[simp] theorem setBufByte_doneIE (a : Nat) (v : Byte) : (s.setBufByte a v).doneIE = s.doneIE := rfl
@[simp] theorem setBufByte_errIE (a : Nat) (v : Byte) : (s.setBufByte a v).errIE = s.errIE := rfl
@[simp] theorem setBufByte_width (a : Nat) (v : Byte) : (s.setBufByte a v).width = s.width := rfl
@[simp] theorem setBufByte_height (a : Nat) (v : Byte) : (s.setBufByte a v).height = s.height := rfl
@[simp] theorem setBufByte_format (a : Nat) (v : Byte) : (s.setBufByte a v).format = s.format := rfl
@[simp] theorem setBufByte_interlace (a : Nat) (v : Byte) : (s.setBufByte a v).interlace = s.interlace := rfl
@[simp] theorem setBufByte_inBase (a : Nat) (v : Byte) : (s.setBufByte a v).inBase = s.inBase := rfl
@[simp] theorem setBufByte_inLen (a : Nat) (v : Byte) : (s.setBufByte a v).inLen = s.inLen := rfl
@[simp] theorem setBufByte_rawBase (a : Nat) (v : Byte) : (s.setBufByte a v).rawBase = s.rawBase := rfl
@[simp] theorem setBufByte_outBase (a : Nat) (v : Byte) : (s.setBufByte a v).outBase = s.outBase := rfl
@[simp] theorem setBufByte_buf (a : Nat) (v : Byte) : (s.setBufByte a v).buf = Memory.store s.buf a v := rfl
@[simp] theorem setBufByte_bufEpoch (a : Nat) (v : Byte) : (s.setBufByte a v).bufEpoch = s.bufEpoch := rfl
@[simp] theorem setBufByte_draws (a : Nat) (v : Byte) : (s.setBufByte a v).draws = s.draws := rfl
@[simp] theorem setBufByte_window (a : Nat) (v : Byte) : (s.setBufByte a v).window = s.window := rfl
@[simp] theorem setBufByte_inReset (a : Nat) (v : Byte) : (s.setBufByte a v).inReset = s.inReset := rfl
@[simp] theorem setBufByte_inputs (a : Nat) (v : Byte) : (s.setBufByte a v).inputs = s.inputs := rfl
@[simp] theorem setBufByte_response (a : Nat) (v : Byte) : (s.setBufByte a v).response = s.response := rfl

/-! ### ackStatus -/

@[simp] theorem ackStatus_params (v : Word) : (s.ackStatus v).params = s.params := rfl
@[simp] theorem ackStatus_es (v : Word) : (s.ackStatus v).es = s.es := rfl
@[simp] theorem ackStatus_opl (v : Word) : (s.ackStatus v).opl = s.opl := rfl
@[simp] theorem ackStatus_ft (v : Word) : (s.ackStatus v).ft = s.ft := rfl
@[simp] theorem ackStatus_geom (v : Word) : (s.ackStatus v).geom = s.geom := rfl
@[simp] theorem ackStatus_done (v : Word) : (s.ackStatus v).done = (s.done && !v.getLsbD 1) := rfl
@[simp] theorem ackStatus_error (v : Word) : (s.ackStatus v).error = (s.error && !v.getLsbD 2) := rfl
@[simp] theorem ackStatus_errCode (v : Word) : (s.ackStatus v).errCode = s.errCode := rfl
@[simp] theorem ackStatus_errOffset (v : Word) : (s.ackStatus v).errOffset = s.errOffset := rfl
@[simp] theorem ackStatus_errInfo (v : Word) : (s.ackStatus v).errInfo = s.errInfo := rfl
@[simp] theorem ackStatus_doneIE (v : Word) : (s.ackStatus v).doneIE = s.doneIE := rfl
@[simp] theorem ackStatus_errIE (v : Word) : (s.ackStatus v).errIE = s.errIE := rfl
@[simp] theorem ackStatus_width (v : Word) : (s.ackStatus v).width = s.width := rfl
@[simp] theorem ackStatus_height (v : Word) : (s.ackStatus v).height = s.height := rfl
@[simp] theorem ackStatus_format (v : Word) : (s.ackStatus v).format = s.format := rfl
@[simp] theorem ackStatus_interlace (v : Word) : (s.ackStatus v).interlace = s.interlace := rfl
@[simp] theorem ackStatus_inBase (v : Word) : (s.ackStatus v).inBase = s.inBase := rfl
@[simp] theorem ackStatus_inLen (v : Word) : (s.ackStatus v).inLen = s.inLen := rfl
@[simp] theorem ackStatus_rawBase (v : Word) : (s.ackStatus v).rawBase = s.rawBase := rfl
@[simp] theorem ackStatus_outBase (v : Word) : (s.ackStatus v).outBase = s.outBase := rfl
@[simp] theorem ackStatus_buf (v : Word) : (s.ackStatus v).buf = s.buf := rfl
@[simp] theorem ackStatus_bufEpoch (v : Word) : (s.ackStatus v).bufEpoch = s.bufEpoch := rfl
@[simp] theorem ackStatus_draws (v : Word) : (s.ackStatus v).draws = s.draws := rfl
@[simp] theorem ackStatus_window (v : Word) : (s.ackStatus v).window = s.window := rfl
@[simp] theorem ackStatus_inReset (v : Word) : (s.ackStatus v).inReset = s.inReset := rfl
@[simp] theorem ackStatus_inputs (v : Word) : (s.ackStatus v).inputs = s.inputs := rfl
@[simp] theorem ackStatus_response (v : Word) : (s.ackStatus v).response = s.response := rfl

/-! ### setIntEn -/

@[simp] theorem setIntEn_params (v : Word) : (s.setIntEn v).params = s.params := rfl
@[simp] theorem setIntEn_es (v : Word) : (s.setIntEn v).es = s.es := rfl
@[simp] theorem setIntEn_opl (v : Word) : (s.setIntEn v).opl = s.opl := rfl
@[simp] theorem setIntEn_ft (v : Word) : (s.setIntEn v).ft = s.ft := rfl
@[simp] theorem setIntEn_geom (v : Word) : (s.setIntEn v).geom = s.geom := rfl
@[simp] theorem setIntEn_done (v : Word) : (s.setIntEn v).done = s.done := rfl
@[simp] theorem setIntEn_error (v : Word) : (s.setIntEn v).error = s.error := rfl
@[simp] theorem setIntEn_errCode (v : Word) : (s.setIntEn v).errCode = s.errCode := rfl
@[simp] theorem setIntEn_errOffset (v : Word) : (s.setIntEn v).errOffset = s.errOffset := rfl
@[simp] theorem setIntEn_errInfo (v : Word) : (s.setIntEn v).errInfo = s.errInfo := rfl
@[simp] theorem setIntEn_doneIE (v : Word) : (s.setIntEn v).doneIE = v.getLsbD 0 := rfl
@[simp] theorem setIntEn_errIE (v : Word) : (s.setIntEn v).errIE = v.getLsbD 1 := rfl
@[simp] theorem setIntEn_width (v : Word) : (s.setIntEn v).width = s.width := rfl
@[simp] theorem setIntEn_height (v : Word) : (s.setIntEn v).height = s.height := rfl
@[simp] theorem setIntEn_format (v : Word) : (s.setIntEn v).format = s.format := rfl
@[simp] theorem setIntEn_interlace (v : Word) : (s.setIntEn v).interlace = s.interlace := rfl
@[simp] theorem setIntEn_inBase (v : Word) : (s.setIntEn v).inBase = s.inBase := rfl
@[simp] theorem setIntEn_inLen (v : Word) : (s.setIntEn v).inLen = s.inLen := rfl
@[simp] theorem setIntEn_rawBase (v : Word) : (s.setIntEn v).rawBase = s.rawBase := rfl
@[simp] theorem setIntEn_outBase (v : Word) : (s.setIntEn v).outBase = s.outBase := rfl
@[simp] theorem setIntEn_buf (v : Word) : (s.setIntEn v).buf = s.buf := rfl
@[simp] theorem setIntEn_bufEpoch (v : Word) : (s.setIntEn v).bufEpoch = s.bufEpoch := rfl
@[simp] theorem setIntEn_draws (v : Word) : (s.setIntEn v).draws = s.draws := rfl
@[simp] theorem setIntEn_window (v : Word) : (s.setIntEn v).window = s.window := rfl
@[simp] theorem setIntEn_inReset (v : Word) : (s.setIntEn v).inReset = s.inReset := rfl
@[simp] theorem setIntEn_inputs (v : Word) : (s.setIntEn v).inputs = s.inputs := rfl
@[simp] theorem setIntEn_response (v : Word) : (s.setIntEn v).response = s.response := rfl

/-! ### redrawRegion -/

@[simp] theorem redrawRegion_params (q : Region) : (s.redrawRegion q).params = s.params := rfl
@[simp] theorem redrawRegion_es (q : Region) : (s.redrawRegion q).es = s.es := rfl
@[simp] theorem redrawRegion_opl (q : Region) : (s.redrawRegion q).opl = s.opl := rfl
@[simp] theorem redrawRegion_ft (q : Region) : (s.redrawRegion q).ft = s.ft := rfl
@[simp] theorem redrawRegion_geom (q : Region) : (s.redrawRegion q).geom = s.geom := rfl
@[simp] theorem redrawRegion_done (q : Region) : (s.redrawRegion q).done = s.done := rfl
@[simp] theorem redrawRegion_error (q : Region) : (s.redrawRegion q).error = s.error := rfl
@[simp] theorem redrawRegion_errCode (q : Region) : (s.redrawRegion q).errCode = s.errCode := rfl
@[simp] theorem redrawRegion_errOffset (q : Region) : (s.redrawRegion q).errOffset = s.errOffset := rfl
@[simp] theorem redrawRegion_errInfo (q : Region) : (s.redrawRegion q).errInfo = s.errInfo := rfl
@[simp] theorem redrawRegion_doneIE (q : Region) : (s.redrawRegion q).doneIE = s.doneIE := rfl
@[simp] theorem redrawRegion_errIE (q : Region) : (s.redrawRegion q).errIE = s.errIE := rfl
@[simp] theorem redrawRegion_width (q : Region) : (s.redrawRegion q).width = s.width := rfl
@[simp] theorem redrawRegion_height (q : Region) : (s.redrawRegion q).height = s.height := rfl
@[simp] theorem redrawRegion_format (q : Region) : (s.redrawRegion q).format = s.format := rfl
@[simp] theorem redrawRegion_interlace (q : Region) : (s.redrawRegion q).interlace = s.interlace := rfl
@[simp] theorem redrawRegion_inBase (q : Region) : (s.redrawRegion q).inBase = s.inBase := rfl
@[simp] theorem redrawRegion_inLen (q : Region) : (s.redrawRegion q).inLen = s.inLen := rfl
@[simp] theorem redrawRegion_rawBase (q : Region) : (s.redrawRegion q).rawBase = s.rawBase := rfl
@[simp] theorem redrawRegion_outBase (q : Region) : (s.redrawRegion q).outBase = s.outBase := rfl
@[simp] theorem redrawRegion_buf (q : Region) : (s.redrawRegion q).buf = Memory.redraw s.memSize (Config.draw s.draws) q.base q.size s.buf := rfl
@[simp] theorem redrawRegion_bufEpoch (q : Region) : (s.redrawRegion q).bufEpoch = s.bufEpoch := rfl
@[simp] theorem redrawRegion_draws (q : Region) : (s.redrawRegion q).draws = s.draws := rfl
@[simp] theorem redrawRegion_window (q : Region) : (s.redrawRegion q).window = s.window := rfl
@[simp] theorem redrawRegion_inReset (q : Region) : (s.redrawRegion q).inReset = s.inReset := rfl
@[simp] theorem redrawRegion_inputs (q : Region) : (s.redrawRegion q).inputs = s.inputs := rfl
@[simp] theorem redrawRegion_response (q : Region) : (s.redrawRegion q).response = s.response := rfl

/-! ### accept -/

@[simp] theorem accept_params (c : Command) : (s.accept c).params = s.params := rfl
@[simp] theorem accept_opl (c : Command) : (s.accept c).opl = c := rfl
@[simp] theorem accept_ft (c : Command) : (s.accept c).ft = s.ft := rfl
@[simp] theorem accept_geom (c : Command) : (s.accept c).geom = s.regGeom := rfl
@[simp] theorem accept_done (c : Command) : (s.accept c).done = s.done := rfl
@[simp] theorem accept_error (c : Command) : (s.accept c).error = s.error := rfl
@[simp] theorem accept_errCode (c : Command) : (s.accept c).errCode = s.errCode := rfl
@[simp] theorem accept_errOffset (c : Command) : (s.accept c).errOffset = s.errOffset := rfl
@[simp] theorem accept_errInfo (c : Command) : (s.accept c).errInfo = s.errInfo := rfl
@[simp] theorem accept_doneIE (c : Command) : (s.accept c).doneIE = s.doneIE := rfl
@[simp] theorem accept_errIE (c : Command) : (s.accept c).errIE = s.errIE := rfl
@[simp] theorem accept_width (c : Command) : (s.accept c).width = s.width := rfl
@[simp] theorem accept_height (c : Command) : (s.accept c).height = s.height := rfl
@[simp] theorem accept_format (c : Command) : (s.accept c).format = s.format := rfl
@[simp] theorem accept_interlace (c : Command) : (s.accept c).interlace = s.interlace := rfl
@[simp] theorem accept_inBase (c : Command) : (s.accept c).inBase = s.inBase := rfl
@[simp] theorem accept_inLen (c : Command) : (s.accept c).inLen = s.inLen := rfl
@[simp] theorem accept_rawBase (c : Command) : (s.accept c).rawBase = s.rawBase := rfl
@[simp] theorem accept_outBase (c : Command) : (s.accept c).outBase = s.outBase := rfl
@[simp] theorem accept_buf (c : Command) : (s.accept c).buf = s.buf := rfl
@[simp] theorem accept_bufEpoch (c : Command) : (s.accept c).bufEpoch = s.bufEpoch := rfl
@[simp] theorem accept_draws (c : Command) : (s.accept c).draws = s.draws := rfl
@[simp] theorem accept_window (c : Command) : (s.accept c).window = some ⟨c, s.regGeom⟩ := rfl
@[simp] theorem accept_inReset (c : Command) : (s.accept c).inReset = s.inReset := rfl
@[simp] theorem accept_inputs (c : Command) : (s.accept c).inputs = s.inputs := rfl
@[simp] theorem accept_response (c : Command) : (s.accept c).response = s.response := rfl

/-! ### respond -/

@[simp] theorem respond_params (d : Response) : (s.respond d).params = s.params := rfl
@[simp] theorem respond_es (d : Response) : (s.respond d).es = s.es := rfl
@[simp] theorem respond_opl (d : Response) : (s.respond d).opl = s.opl := rfl
@[simp] theorem respond_ft (d : Response) : (s.respond d).ft = s.ft := rfl
@[simp] theorem respond_geom (d : Response) : (s.respond d).geom = s.geom := rfl
@[simp] theorem respond_done (d : Response) : (s.respond d).done = s.done := rfl
@[simp] theorem respond_error (d : Response) : (s.respond d).error = s.error := rfl
@[simp] theorem respond_errCode (d : Response) : (s.respond d).errCode = s.errCode := rfl
@[simp] theorem respond_errOffset (d : Response) : (s.respond d).errOffset = s.errOffset := rfl
@[simp] theorem respond_errInfo (d : Response) : (s.respond d).errInfo = s.errInfo := rfl
@[simp] theorem respond_doneIE (d : Response) : (s.respond d).doneIE = s.doneIE := rfl
@[simp] theorem respond_errIE (d : Response) : (s.respond d).errIE = s.errIE := rfl
@[simp] theorem respond_width (d : Response) : (s.respond d).width = s.width := rfl
@[simp] theorem respond_height (d : Response) : (s.respond d).height = s.height := rfl
@[simp] theorem respond_format (d : Response) : (s.respond d).format = s.format := rfl
@[simp] theorem respond_interlace (d : Response) : (s.respond d).interlace = s.interlace := rfl
@[simp] theorem respond_inBase (d : Response) : (s.respond d).inBase = s.inBase := rfl
@[simp] theorem respond_inLen (d : Response) : (s.respond d).inLen = s.inLen := rfl
@[simp] theorem respond_rawBase (d : Response) : (s.respond d).rawBase = s.rawBase := rfl
@[simp] theorem respond_outBase (d : Response) : (s.respond d).outBase = s.outBase := rfl
@[simp] theorem respond_buf (d : Response) : (s.respond d).buf = s.buf := rfl
@[simp] theorem respond_bufEpoch (d : Response) : (s.respond d).bufEpoch = s.bufEpoch := rfl
@[simp] theorem respond_draws (d : Response) : (s.respond d).draws = s.draws := rfl
@[simp] theorem respond_window (d : Response) : (s.respond d).window = s.window := rfl
@[simp] theorem respond_inReset (d : Response) : (s.respond d).inReset = s.inReset := rfl
@[simp] theorem respond_inputs (d : Response) : (s.respond d).inputs = s.inputs := rfl
@[simp] theorem respond_response (d : Response) : (s.respond d).response = some d := rfl

/-! ### withInputs -/

@[simp] theorem withInputs_params (l : List Input) : (s.withInputs l).params = s.params := rfl
@[simp] theorem withInputs_es (l : List Input) : (s.withInputs l).es = s.es := rfl
@[simp] theorem withInputs_opl (l : List Input) : (s.withInputs l).opl = s.opl := rfl
@[simp] theorem withInputs_ft (l : List Input) : (s.withInputs l).ft = s.ft := rfl
@[simp] theorem withInputs_geom (l : List Input) : (s.withInputs l).geom = s.geom := rfl
@[simp] theorem withInputs_done (l : List Input) : (s.withInputs l).done = s.done := rfl
@[simp] theorem withInputs_error (l : List Input) : (s.withInputs l).error = s.error := rfl
@[simp] theorem withInputs_errCode (l : List Input) : (s.withInputs l).errCode = s.errCode := rfl
@[simp] theorem withInputs_errOffset (l : List Input) : (s.withInputs l).errOffset = s.errOffset := rfl
@[simp] theorem withInputs_errInfo (l : List Input) : (s.withInputs l).errInfo = s.errInfo := rfl
@[simp] theorem withInputs_doneIE (l : List Input) : (s.withInputs l).doneIE = s.doneIE := rfl
@[simp] theorem withInputs_errIE (l : List Input) : (s.withInputs l).errIE = s.errIE := rfl
@[simp] theorem withInputs_width (l : List Input) : (s.withInputs l).width = s.width := rfl
@[simp] theorem withInputs_height (l : List Input) : (s.withInputs l).height = s.height := rfl
@[simp] theorem withInputs_format (l : List Input) : (s.withInputs l).format = s.format := rfl
@[simp] theorem withInputs_interlace (l : List Input) : (s.withInputs l).interlace = s.interlace := rfl
@[simp] theorem withInputs_inBase (l : List Input) : (s.withInputs l).inBase = s.inBase := rfl
@[simp] theorem withInputs_inLen (l : List Input) : (s.withInputs l).inLen = s.inLen := rfl
@[simp] theorem withInputs_rawBase (l : List Input) : (s.withInputs l).rawBase = s.rawBase := rfl
@[simp] theorem withInputs_outBase (l : List Input) : (s.withInputs l).outBase = s.outBase := rfl
@[simp] theorem withInputs_buf (l : List Input) : (s.withInputs l).buf = s.buf := rfl
@[simp] theorem withInputs_bufEpoch (l : List Input) : (s.withInputs l).bufEpoch = s.bufEpoch := rfl
@[simp] theorem withInputs_draws (l : List Input) : (s.withInputs l).draws = s.draws := rfl
@[simp] theorem withInputs_window (l : List Input) : (s.withInputs l).window = s.window := rfl
@[simp] theorem withInputs_inReset (l : List Input) : (s.withInputs l).inReset = s.inReset := rfl
@[simp] theorem withInputs_inputs (l : List Input) : (s.withInputs l).inputs = l := rfl
@[simp] theorem withInputs_response (l : List Input) : (s.withInputs l).response = s.response := rfl

/-! ### clearResponse -/

@[simp] theorem clearResponse_params : s.clearResponse.params = s.params := rfl
@[simp] theorem clearResponse_es : s.clearResponse.es = s.es := rfl
@[simp] theorem clearResponse_opl : s.clearResponse.opl = s.opl := rfl
@[simp] theorem clearResponse_ft : s.clearResponse.ft = s.ft := rfl
@[simp] theorem clearResponse_geom : s.clearResponse.geom = s.geom := rfl
@[simp] theorem clearResponse_done : s.clearResponse.done = s.done := rfl
@[simp] theorem clearResponse_error : s.clearResponse.error = s.error := rfl
@[simp] theorem clearResponse_errCode : s.clearResponse.errCode = s.errCode := rfl
@[simp] theorem clearResponse_errOffset : s.clearResponse.errOffset = s.errOffset := rfl
@[simp] theorem clearResponse_errInfo : s.clearResponse.errInfo = s.errInfo := rfl
@[simp] theorem clearResponse_doneIE : s.clearResponse.doneIE = s.doneIE := rfl
@[simp] theorem clearResponse_errIE : s.clearResponse.errIE = s.errIE := rfl
@[simp] theorem clearResponse_width : s.clearResponse.width = s.width := rfl
@[simp] theorem clearResponse_height : s.clearResponse.height = s.height := rfl
@[simp] theorem clearResponse_format : s.clearResponse.format = s.format := rfl
@[simp] theorem clearResponse_interlace : s.clearResponse.interlace = s.interlace := rfl
@[simp] theorem clearResponse_inBase : s.clearResponse.inBase = s.inBase := rfl
@[simp] theorem clearResponse_inLen : s.clearResponse.inLen = s.inLen := rfl
@[simp] theorem clearResponse_rawBase : s.clearResponse.rawBase = s.rawBase := rfl
@[simp] theorem clearResponse_outBase : s.clearResponse.outBase = s.outBase := rfl
@[simp] theorem clearResponse_buf : s.clearResponse.buf = s.buf := rfl
@[simp] theorem clearResponse_bufEpoch : s.clearResponse.bufEpoch = s.bufEpoch := rfl
@[simp] theorem clearResponse_draws : s.clearResponse.draws = s.draws := rfl
@[simp] theorem clearResponse_window : s.clearResponse.window = s.window := rfl
@[simp] theorem clearResponse_inReset : s.clearResponse.inReset = s.inReset := rfl
@[simp] theorem clearResponse_inputs : s.clearResponse.inputs = s.inputs := rfl
@[simp] theorem clearResponse_response : s.clearResponse.response = none := rfl

/-! ### releaseReset -/

@[simp] theorem releaseReset_params : s.releaseReset.params = s.params := rfl
@[simp] theorem releaseReset_es : s.releaseReset.es = s.es := rfl
@[simp] theorem releaseReset_opl : s.releaseReset.opl = s.opl := rfl
@[simp] theorem releaseReset_ft : s.releaseReset.ft = s.ft := rfl
@[simp] theorem releaseReset_geom : s.releaseReset.geom = s.geom := rfl
@[simp] theorem releaseReset_done : s.releaseReset.done = s.done := rfl
@[simp] theorem releaseReset_error : s.releaseReset.error = s.error := rfl
@[simp] theorem releaseReset_errCode : s.releaseReset.errCode = s.errCode := rfl
@[simp] theorem releaseReset_errOffset : s.releaseReset.errOffset = s.errOffset := rfl
@[simp] theorem releaseReset_errInfo : s.releaseReset.errInfo = s.errInfo := rfl
@[simp] theorem releaseReset_doneIE : s.releaseReset.doneIE = s.doneIE := rfl
@[simp] theorem releaseReset_errIE : s.releaseReset.errIE = s.errIE := rfl
@[simp] theorem releaseReset_width : s.releaseReset.width = s.width := rfl
@[simp] theorem releaseReset_height : s.releaseReset.height = s.height := rfl
@[simp] theorem releaseReset_format : s.releaseReset.format = s.format := rfl
@[simp] theorem releaseReset_interlace : s.releaseReset.interlace = s.interlace := rfl
@[simp] theorem releaseReset_inBase : s.releaseReset.inBase = s.inBase := rfl
@[simp] theorem releaseReset_inLen : s.releaseReset.inLen = s.inLen := rfl
@[simp] theorem releaseReset_rawBase : s.releaseReset.rawBase = s.rawBase := rfl
@[simp] theorem releaseReset_outBase : s.releaseReset.outBase = s.outBase := rfl
@[simp] theorem releaseReset_buf : s.releaseReset.buf = s.buf := rfl
@[simp] theorem releaseReset_bufEpoch : s.releaseReset.bufEpoch = s.bufEpoch := rfl
@[simp] theorem releaseReset_draws : s.releaseReset.draws = s.draws := rfl
@[simp] theorem releaseReset_window : s.releaseReset.window = s.window := rfl
@[simp] theorem releaseReset_inReset : s.releaseReset.inReset = false := rfl
@[simp] theorem releaseReset_inputs : s.releaseReset.inputs = s.inputs := rfl
@[simp] theorem releaseReset_response : s.releaseReset.response = s.response := rfl

/-! ### Views through the updates -/

@[simp] theorem regGeom_width : s.regGeom.width = s.width := rfl
@[simp] theorem regGeom_height : s.regGeom.height = s.height := rfl
@[simp] theorem regGeom_inBase : s.regGeom.inBase = s.inBase := rfl
@[simp] theorem regGeom_rawBase : s.regGeom.rawBase = s.rawBase := rfl
@[simp] theorem regGeom_outBase : s.regGeom.outBase = s.outBase := rfl
@[simp] theorem regGeom_clearStatus : s.clearStatus.regGeom = s.regGeom := rfl
@[simp] theorem busy_clearStatus : s.clearStatus.busy = s.busy := rfl
@[simp] theorem regGeom_setBufByte (a : Nat) (v : Byte) : (s.setBufByte a v).regGeom = s.regGeom := rfl
@[simp] theorem accept_es_defilter : (s.accept .defilter).es = .dfHdr 0 := rfl
@[simp] theorem accept_es_flip : (s.accept .flip).es = .flByte 0 0 := rfl
@[simp] theorem accept_es_convert : (s.accept .convert).es = .dfHdr 0 := rfl

/-- BUSY is off exactly in IDLE (10_state.md R29). -/
theorem busy_eq_false_iff : s.busy = false ↔ s.es = .idle := by
  unfold State.busy
  cases s.es <;> simp

theorem busy_eq_true_iff : s.busy = true ↔ s.es ≠ .idle := by
  unfold State.busy
  cases s.es <;> simp

/-- BUSY depends on ES alone. -/
theorem busy_congr (t : State) (h : t.es = s.es) : t.busy = s.busy := by
  unfold State.busy
  rw [h]

end Sys2Proof.Machine
end

