-- ==== Sys2Proof/Laws/Memory.lean ====
section
/-! SUPPORT. BUF: a read after a write, what a write leaves alone, and that every operation keeps the canonical form. -/

namespace Sys2Proof.Machine

/-! ## The list of cells -/

theorem lookup_store (m : List Host.Cell) (a b : Nat) (v : Byte) (hm : m.Pairwise (fun c d => c.1 < d.1)) :
    Memory.lookup (Memory.store m a v) b = if b = a then some v else Memory.lookup m b := by
  induction m with
  | nil =>
    simp only [Memory.store, Memory.lookup]
    split <;> split <;> simp_all
  | cons c m ih =>
    have hm' := List.pairwise_cons.mp hm
    simp only [Memory.store]
    split
    · simp only [Memory.lookup]
      by_cases hb : b = a
      · subst hb; simp
      · have : a ≠ b := fun h => hb h.symm
        simp [hb, this]
    · split
      · simp only [Memory.lookup]
        rename_i h
        by_cases hb : b = a
        · subst hb; simp
        · have h1 : a ≠ b := fun h => hb h.symm
          have h2 : c.1 ≠ b := by omega
          simp [hb, h1, h2]
      · rename_i h1 h2
        simp only [Memory.lookup, ih hm'.2]
        by_cases hc : c.1 = b
        · have : b ≠ a := by omega
          simp [hc, this]
        · simp [hc]

/-- A store to one address never changes what another address holds, whatever the list. -/
theorem lookup_store_ne (m : List Host.Cell) (a b : Nat) (v : Byte) (h : b ≠ a) :
    Memory.lookup (Memory.store m a v) b = Memory.lookup m b := by
  induction m with
  | nil => simp [Memory.store, Memory.lookup, Ne.symm h]
  | cons c m ih =>
    simp only [Memory.store]
    split
    · simp [Memory.lookup, Ne.symm h]
    · split
      · rename_i h1 h2
        simp [Memory.lookup, Ne.symm h, ← h2]
      · simp [Memory.lookup, ih]

/-- A store is read back at its own address, whatever the list. -/
theorem lookup_store_self (m : List Host.Cell) (a : Nat) (v : Byte) :
    Memory.lookup (Memory.store m a v) a = some v := by
  induction m with
  | nil => simp [Memory.store, Memory.lookup]
  | cons c m ih =>
    simp only [Memory.store]
    split
    · simp [Memory.lookup]
    · split
      · simp [Memory.lookup]
      · rename_i h1 h2
        simp [Memory.lookup, ih, Ne.symm h2]

theorem mem_store (m : List Host.Cell) (a : Nat) (v : Byte) (c : Host.Cell) (h : c ∈ Memory.store m a v) :
    c = (a, v) ∨ c ∈ m := by
  induction m with
  | nil => simpa [Memory.store] using h
  | cons d m ih =>
    simp only [Memory.store] at h
    split at h
    · simpa using h
    · split at h
      · rcases List.mem_cons.mp h with h | h
        · exact .inl h
        · exact .inr (List.mem_cons_of_mem _ h)
      · rcases List.mem_cons.mp h with h | h
        · exact .inr (h ▸ List.mem_cons_self)
        · exact (ih h).imp id (List.mem_cons_of_mem _)

theorem store_rising (m : List Host.Cell) (a : Nat) (v : Byte) (hm : m.Pairwise (fun c d => c.1 < d.1)) :
    (Memory.store m a v).Pairwise (fun c d => c.1 < d.1) := by
  induction m with
  | nil => simp [Memory.store]
  | cons c m ih =>
    have hm' := List.pairwise_cons.mp hm
    simp only [Memory.store]
    split
    · rename_i h
      refine List.pairwise_cons.mpr ⟨fun d hd => ?_, hm⟩
      rcases List.mem_cons.mp hd with hd | hd
      · simpa [hd] using h
      · exact Nat.lt_trans h (hm'.1 d hd)
    · split
      · rename_i h
        exact List.pairwise_cons.mpr ⟨fun d hd => by simpa [h] using hm'.1 d hd, hm'.2⟩
      · rename_i h1 h2
        refine List.pairwise_cons.mpr ⟨fun d hd => ?_, ih hm'.2⟩
        rcases mem_store m a v d hd with hd | hd
        · subst hd; simp only; omega
        · exact hm'.1 d hd

/-- A store inside BUF keeps the canonical form. -/
theorem store_wf (n : Nat) (m : List Host.Cell) (a : Nat) (v : Byte) (ha : a < n) (hm : Memory.wf n m) :
    Memory.wf n (Memory.store m a v) :=
  ⟨store_rising m a v hm.1, fun c hc => by
    rcases mem_store m a v c hc with h | h
    · subst h; exact ha
    · exact hm.2 c h⟩

/-- A redraw keeps the canonical form. -/
theorem redraw_wf (n : Nat) (draw : Nat → Byte) (base k : Nat) (m : List Host.Cell) (hm : Memory.wf n m) :
    Memory.wf n (Memory.redraw n draw base k m) := by
  induction k with
  | zero => exact hm
  | succ k ih =>
    simp only [Memory.redraw]
    split
    · exact store_wf n _ _ _ ‹_› ih
    · exact ih

/-- A redraw gives each byte of its interval that BUF has the drawn value and leaves every other byte alone. -/
theorem lookup_redraw (n : Nat) (draw : Nat → Byte) (base k : Nat) (m : List Host.Cell) (a : Nat) :
    Memory.lookup (Memory.redraw n draw base k m) a =
      if base ≤ a ∧ a < base + k ∧ a < n then some (draw a) else Memory.lookup m a := by
  induction k with
  | zero =>
    have : ¬(base ≤ a ∧ a < base + 0 ∧ a < n) := by omega
    simp only [Memory.redraw, if_neg this]
  | succ k ih =>
    simp only [Memory.redraw]
    by_cases hn : base + k < n
    · rw [if_pos hn]
      by_cases ha : a = base + k
      · subst ha
        rw [lookup_store_self, if_pos (by omega)]
      · rw [lookup_store_ne _ _ _ _ ha, ih]
        by_cases h : base ≤ a ∧ a < base + k ∧ a < n
        · rw [if_pos h, if_pos (by omega)]
        · rw [if_neg h, if_neg (by omega)]
    · rw [if_neg hn, ih]
      by_cases h : base ≤ a ∧ a < base + k ∧ a < n
      · rw [if_pos h, if_pos (by omega)]
      · rw [if_neg h, if_neg (by omega)]

/-! ## BUF through State -/

/-- BUF's bytes depend on the list and the draw number alone. -/
theorem bufByte_congr (s t : State) (hb : t.buf = s.buf) (he : t.bufEpoch = s.bufEpoch) (a : Nat) :
    t.bufByte a = s.bufByte a := by
  unfold State.bufByte State.unstored
  rw [hb, he]

@[simp] theorem bufByte_setBufByte_self (s : State) (a : Nat) (v : Byte) : (s.setBufByte a v).bufByte a = v := by
  simp [State.bufByte, lookup_store_self]

theorem bufByte_setBufByte_ne (s : State) (a b : Nat) (v : Byte) (h : b ≠ a) :
    (s.setBufByte a v).bufByte b = s.bufByte b := by
  simp [State.bufByte, State.unstored, lookup_store_ne _ _ _ _ h]

theorem bufByte_redrawRegion (s : State) (q : Region) (a : Nat) :
    (s.redrawRegion q).bufByte a =
      if q.base ≤ a ∧ a < q.base + q.size ∧ a < s.memSize then Config.draw s.draws a else s.bufByte a := by
  simp only [State.bufByte, State.unstored, redrawRegion_buf, redrawRegion_bufEpoch, lookup_redraw]
  split <;> rfl

@[simp] theorem bufByte_clearStatus (s : State) (a : Nat) : s.clearStatus.bufByte a = s.bufByte a := rfl
@[simp] theorem bufByte_raiseError (s : State) (c : ErrCode) (o i : Word) (a : Nat) :
    (s.raiseError c o i).bufByte a = s.bufByte a := rfl
@[simp] theorem bufByte_complete (s : State) (a : Nat) : s.complete.bufByte a = s.bufByte a := rfl
@[simp] theorem bufByte_accept (s : State) (c : Command) (a : Nat) : (s.accept c).bufByte a = s.bufByte a := rfl

end Sys2Proof.Machine
end

