-- ==== Sys2Proof/Laws/Ops.lean ====
section
/-! SUPPORT. One lemma per shared operation that says once everything it does, and what each engine step and host access
can answer: later proofs cite these instead of unfolding. -/

namespace Sys2Proof.Machine

/-! ## Where the engine goes next -/

/-- R109's advance as one update: only ES and DONE can change. -/
theorem advanceDefilter_eq (r col : Nat) (s : State) :
    s.advanceDefilter r col =
      { s with
        es :=
          if col + 1 < s.geom.rowBytes then .dfByte r (col + 1)
          else if r + 1 < s.geom.rows then .dfHdr (r + 1)
          else if s.opl = .convert then .flByte 0 0
          else .idle
        done :=
          if col + 1 < s.geom.rowBytes ∨ r + 1 < s.geom.rows ∨ s.opl = .convert then s.done else true } := by
  unfold State.advanceDefilter State.complete
  by_cases h1 : col + 1 < s.geom.rowBytes
  · simp only [h1, if_true, true_or]
  · by_cases h2 : r + 1 < s.geom.rows
    · simp only [h1, h2, if_true, if_false, true_or, or_true]
    · by_cases h3 : s.opl = .convert
      · simp only [h1, h2, h3, if_true, if_false, or_true]
      · simp only [h1, h2, h3, if_false, or_self]

/-- R142's advance as one update: only ES and DONE can change. -/
theorem advanceFlip_eq (i k : Nat) (s : State) :
    s.advanceFlip i k =
      { s with
        es :=
          if k + 1 < s.geom.rowBytes then .flByte i (k + 1)
          else if i + 1 < s.geom.rows then .flByte (i + 1) 0
          else .idle
        done := if k + 1 < s.geom.rowBytes ∨ i + 1 < s.geom.rows then s.done else true } := by
  unfold State.advanceFlip State.complete
  by_cases h1 : k + 1 < s.geom.rowBytes
  · simp only [h1, if_true, true_or]
  · by_cases h2 : i + 1 < s.geom.rows
    · simp only [h1, h2, if_true, if_false, or_true]
    · simp only [h1, h2, if_false, or_self]

/-- Within a row: the next byte. -/
theorem advanceDefilter_nextByte (r col : Nat) (s : State) (h : col + 1 < s.geom.rowBytes) :
    s.advanceDefilter r col = { s with es := .dfByte r (col + 1) } := by
  unfold State.advanceDefilter
  rw [if_pos h]

/-- At a row's end: the next row's header. -/
theorem advanceDefilter_nextRow (r col : Nat) (s : State) (h : ¬col + 1 < s.geom.rowBytes)
    (h' : r + 1 < s.geom.rows) : s.advanceDefilter r col = { s with es := .dfHdr (r + 1) } := by
  unfold State.advanceDefilter
  rw [if_neg h, if_pos h']

/-- At the last row's end of a CONVERT: the flip phase. -/
theorem advanceDefilter_toFlip (r col : Nat) (s : State) (h : ¬col + 1 < s.geom.rowBytes)
    (h' : ¬r + 1 < s.geom.rows) (hc : s.opl = .convert) :
    s.advanceDefilter r col = { s with es := .flByte 0 0 } := by
  unfold State.advanceDefilter
  rw [if_neg h, if_neg h', if_pos hc]

/-- At the last row's end otherwise: completion. -/
theorem advanceDefilter_complete (r col : Nat) (s : State) (h : ¬col + 1 < s.geom.rowBytes)
    (h' : ¬r + 1 < s.geom.rows) (hc : s.opl ≠ .convert) : s.advanceDefilter r col = s.complete := by
  unfold State.advanceDefilter
  rw [if_neg h, if_neg h', if_neg hc]

/-- Within a row of the flip: the next byte. -/
theorem advanceFlip_nextByte (i k : Nat) (s : State) (h : k + 1 < s.geom.rowBytes) :
    s.advanceFlip i k = { s with es := .flByte i (k + 1) } := by
  unfold State.advanceFlip
  rw [if_pos h]

/-- At a row's end of the flip: the next row. -/
theorem advanceFlip_nextRow (i k : Nat) (s : State) (h : ¬k + 1 < s.geom.rowBytes) (h' : i + 1 < s.geom.rows) :
    s.advanceFlip i k = { s with es := .flByte (i + 1) 0 } := by
  unfold State.advanceFlip
  rw [if_neg h, if_pos h']

/-- At the flip's last byte: completion. -/
theorem advanceFlip_complete (i k : Nat) (s : State) (h : ¬k + 1 < s.geom.rowBytes) (h' : ¬i + 1 < s.geom.rows) :
    s.advanceFlip i k = s.complete := by
  unfold State.advanceFlip
  rw [if_neg h, if_neg h']

@[simp] theorem bufByte_advanceDefilter (r col : Nat) (s : State) (a : Nat) :
    (s.advanceDefilter r col).bufByte a = s.bufByte a := by
  rw [advanceDefilter_eq]; rfl

@[simp] theorem bufByte_advanceFlip (i k : Nat) (s : State) (a : Nat) :
    (s.advanceFlip i k).bufByte a = s.bufByte a := by
  rw [advanceFlip_eq]; rfl

/-! ## Errors -/

/-- The regions a command writes, address by address. -/
theorem writesAt_iff (c : Command) (g : Geom) (a : Nat) :
    c.writesAt g a = true ↔
      (c ≠ .flip ∧ g.rawBase.toNat ≤ a ∧ a < g.rawBase.toNat + g.rawBytes) ∨
      (c ≠ .defilter ∧ g.outBase.toNat ≤ a ∧ a < g.outBase.toNat + g.rawBytes) := by
  cases c <;>
    simp [Command.writesAt, Command.writes, Region.has, Geom.rawRegion, Geom.outRegion]

/-- The regions a command reads or writes, address by address. -/
theorem usesAt_iff (c : Command) (g : Geom) (a : Nat) :
    c.usesAt g a = true ↔
      (c ≠ .flip ∧ g.inBase.toNat ≤ a ∧ a < g.inBase.toNat + g.inExpect) ∨
      (g.rawBase.toNat ≤ a ∧ a < g.rawBase.toNat + g.rawBytes) ∨
      (c ≠ .defilter ∧ g.outBase.toNat ≤ a ∧ a < g.outBase.toNat + g.rawBytes) := by
  cases c
  all_goals
    simp [Command.usesAt, Command.writesAt, Command.reads, Command.writes, Region.has, Geom.inRegion, Geom.rawRegion,
      Geom.outRegion]
    try omega

/-- A redraw of the write regions changes only BUF's list and the draw counter. -/
theorem redrawWrites_eq (c : Command) (g : Geom) (s : State) :
    s.redrawWrites c g = { s with buf := (s.redrawWrites c g).buf, draws := s.draws + 1 } := by
  cases c <;> rfl

/-- After a redraw each byte of the write regions holds the draw, every other byte what it held (60_exceptions.md R203). -/
theorem bufByte_redrawWrites (c : Command) (g : Geom) (s : State) (a : Nat) :
    (s.redrawWrites c g).bufByte a =
      if c.writesAt g a = true ∧ a < s.memSize then Config.draw s.draws a else s.bufByte a := by
  have key : (s.redrawWrites c g).bufByte a = ((c.writes g).foldl (fun u q => u.redrawRegion q) s).bufByte a := rfl
  rw [key]
  have hw := writesAt_iff c g a
  cases c
  · simp only [Command.writes, List.foldl_cons, List.foldl_nil, bufByte_redrawRegion, Geom.rawRegion]
    by_cases h : g.rawBase.toNat ≤ a ∧ a < g.rawBase.toNat + g.rawBytes ∧ a < s.memSize
    · rw [if_pos h, if_pos ⟨hw.mpr (.inl ⟨by simp, h.1, h.2.1⟩), h.2.2⟩]
    · rw [if_neg h, if_neg]
      intro hc
      rcases hw.mp hc.1 with h' | h'
      · exact h ⟨h'.2.1, h'.2.2, hc.2⟩
      · exact absurd rfl h'.1
  · simp only [Command.writes, List.foldl_cons, List.foldl_nil, bufByte_redrawRegion, Geom.outRegion]
    by_cases h : g.outBase.toNat ≤ a ∧ a < g.outBase.toNat + g.rawBytes ∧ a < s.memSize
    · rw [if_pos h, if_pos ⟨hw.mpr (.inr ⟨by simp, h.1, h.2.1⟩), h.2.2⟩]
    · rw [if_neg h, if_neg]
      intro hc
      rcases hw.mp hc.1 with h' | h'
      · exact absurd rfl h'.1
      · exact h ⟨h'.2.1, h'.2.2, hc.2⟩
  · simp only [Command.writes, List.foldl_cons, List.foldl_nil, bufByte_redrawRegion, Geom.outRegion, Geom.rawRegion]
    have hm : (s.redrawRegion { base := g.rawBase.toNat, size := g.rawBytes }).memSize = s.memSize := rfl
    rw [hm, redrawRegion_draws]
    by_cases h : g.outBase.toNat ≤ a ∧ a < g.outBase.toNat + g.rawBytes ∧ a < s.memSize
    · rw [if_pos h, if_pos ⟨hw.mpr (.inr ⟨by simp, h.1, h.2.1⟩), h.2.2⟩]
    · rw [if_neg h]
      by_cases h2 : g.rawBase.toNat ≤ a ∧ a < g.rawBase.toNat + g.rawBytes ∧ a < s.memSize
      · rw [if_pos h2, if_pos ⟨hw.mpr (.inl ⟨by simp, h2.1, h2.2.1⟩), h2.2.2⟩]
      · rw [if_neg h2, if_neg]
        intro hc
        rcases hw.mp hc.1 with h' | h'
        · exact h2 ⟨h'.2.1, h'.2.2, hc.2⟩
        · exact h ⟨h'.2.1, h'.2.2, hc.2⟩

/-- A redraw of the write regions keeps the canonical form. -/
theorem redrawWrites_wf (c : Command) (g : Geom) (s : State) (h : s.MemOk) : (s.redrawWrites c g).MemOk := by
  cases c
  · exact redraw_wf _ _ _ _ _ h
  · exact redraw_wf _ _ _ _ _ h
  · exact redraw_wf _ _ _ _ _ (redraw_wf _ _ _ _ _ h)

/-- InvalidFilterType as one update (60_exceptions.md R202): ES, ERROR, ERR_*, BUF's list and the draw counter. -/
theorem invalidFilterType_eq (r : Nat) (b : Byte) (s : State) :
    s.invalidFilterType r b =
      { s with
        es := .idle, error := true, errCode := .invalidFilterType
        errOffset := BitVec.ofNat 32 (r * s.geom.lineBytes), errInfo := BitVec.ofNat 32 b.toNat
        buf := (s.invalidFilterType r b).buf, draws := s.draws + 1 } :=
  redrawWrites_eq s.opl s.geom (s.raiseError .invalidFilterType _ _)

/-- BUF after InvalidFilterType (60_exceptions.md R203). -/
theorem bufByte_invalidFilterType (r : Nat) (b : Byte) (s : State) (a : Nat) :
    (s.invalidFilterType r b).bufByte a =
      if s.opl.writesAt s.geom a = true ∧ a < s.memSize then Config.draw s.draws a else s.bufByte a :=
  bufByte_redrawWrites s.opl s.geom (s.raiseError .invalidFilterType _ _) a

/-! ## Decoding -/

theorem decodeRow_code (f : FilterType) : decode (.ft f.code) = .ok f.instr := by cases f <;> rfl

/-- A row opcode byte is a filter's code or is refused by name, and then it is above 4. -/
theorem decode_ft_cases (b : Byte) :
    (∃ f : FilterType, b = f.code ∧ decode (.ft b) = .ok f.instr) ∨
      (4 < b.toNat ∧ decode (.ft b) = .error (.invalidFilterType b)) := by
  by_cases h0 : b = 0#8
  · exact .inl ⟨.none, h0, by subst h0; rfl⟩
  by_cases h1 : b = 1#8
  · exact .inl ⟨.sub, h1, by subst h1; rfl⟩
  by_cases h2 : b = 2#8
  · exact .inl ⟨.up, h2, by subst h2; rfl⟩
  by_cases h3 : b = 3#8
  · exact .inl ⟨.avg, h3, by subst h3; rfl⟩
  by_cases h4 : b = 4#8
  · exact .inl ⟨.paeth, h4, by subst h4; rfl⟩
  refine .inr ⟨?_, by simp [decode, decodeRow, h0, h1, h2, h3, h4]⟩
  by_contra h
  have : b.toNat = 0 ∨ b.toNat = 1 ∨ b.toNat = 2 ∨ b.toNat = 3 ∨ b.toNat = 4 := by omega
  rcases this with h | h | h | h | h
  · exact h0 (BitVec.eq_of_toNat_eq h)
  · exact h1 (BitVec.eq_of_toNat_eq h)
  · exact h2 (BitVec.eq_of_toNat_eq h)
  · exact h3 (BitVec.eq_of_toNat_eq h)
  · exact h4 (BitVec.eq_of_toNat_eq h)

/-- A command word is one of the four or is refused by name. -/
theorem decode_cmd_cases (w : Word) :
    (w = 0#32 ∧ decode (.cmd w) = .ok .nop) ∨
      (∃ c : Command, decode (.cmd w) = .ok c.instr) ∨
      decode (.cmd w) = .error (.illegalCommand w) := by
  simp only [decode, decodeCommand]
  split
  · exact .inr (.inr rfl)
  · rename_i hr
    split
    · rename_i ho
      refine .inl ⟨?_, rfl⟩
      rw [not_not] at hr
      have h1 := congrArg BitVec.toNat hr
      have h2 := congrArg BitVec.toNat ho
      simp only [BitVec.extractLsb'_toNat, BitVec.toNat_ofNat] at h1 h2
      apply BitVec.eq_of_toNat_eq
      simp only [Nat.shiftRight_eq_div_pow, BitVec.toNat_ofNat] at *
      omega
    · split
      · exact .inr (.inl ⟨.defilter, rfl⟩)
      · split
        · exact .inr (.inl ⟨.flip, rfl⟩)
        · split
          · exact .inr (.inl ⟨.convert, rfl⟩)
          · exact .inr (.inr rfl)

/-! ## Row opcodes -/

/-- A latched filter's instruction at DF_HDR(r): the latch (40_defilter.md R108). -/
theorem exec_filter_dfHdr (f : FilterType) (s : State) (r : Nat) (h : s.es = .dfHdr r) :
    exec f.instr s = .next { s with ft := f, es := .dfByte r 0 } := by
  cases f <;> simp [exec, FilterType.instr, execNone, execSub, execUp, execAvg, execPaeth, execRow, h]

/-- A latched filter's instruction at DF_BYTE(r, col): the reconstruction with that filter's predictor. -/
theorem exec_filter_dfByte (f : FilterType) (s : State) (r col : Nat) (h : s.es = .dfByte r col) :
    exec f.instr s = reconstructByte f.pred r col s := by
  cases f <;>
    simp [exec, FilterType.instr, execNone, execSub, execUp, execAvg, execPaeth, execRow, FilterType.pred, h]

/-- The byte a DF_BYTE step writes (40_defilter.md R102). -/
def State.outByte (s : State) (pred : Nat → Nat → Nat → Nat) (r col : Nat) : Byte :=
  reconstruct (s.filteredByte r col) (pred (s.leftRef r col) (s.upRef r col) (s.upLeftRef r col))

/-- Inside BUF a reconstruction answers a next state. -/
theorem reconstructByte_next (pred : Nat → Nat → Nat → Nat) (r col : Nat) (s : State)
    (h1 : s.geom.dataAddr r col < s.memSize) (h2 : s.geom.rawAddr r col < s.memSize) :
    reconstructByte pred r col s =
      .next ((s.setBufByte (s.geom.rawAddr r col) (s.outByte pred r col)).advanceDefilter r col) := by
  unfold reconstructByte
  rw [if_neg (by omega), if_neg (by omega)]
  rfl

/-- All that a reconstruction can answer. -/
theorem reconstructByte_cases (pred : Nat → Nat → Nat → Nat) (r col : Nat) (s : State) :
    (s.memSize ≤ s.geom.dataAddr r col ∧ reconstructByte pred r col s = .fault (.engineOutsideBuf (s.geom.dataAddr r col))) ∨
    (s.memSize ≤ s.geom.rawAddr r col ∧ reconstructByte pred r col s = .fault (.engineOutsideBuf (s.geom.rawAddr r col))) ∨
    (s.geom.dataAddr r col < s.memSize ∧ s.geom.rawAddr r col < s.memSize ∧
      reconstructByte pred r col s =
        .next ((s.setBufByte (s.geom.rawAddr r col) (s.outByte pred r col)).advanceDefilter r col)) := by
  by_cases h1 : s.memSize ≤ s.geom.dataAddr r col
  · exact .inl ⟨h1, by unfold reconstructByte; rw [if_pos h1]⟩
  · by_cases h2 : s.memSize ≤ s.geom.rawAddr r col
    · exact .inr (.inl ⟨h2, by unfold reconstructByte; rw [if_neg h1, if_pos h2]⟩)
    · exact .inr (.inr ⟨by omega, by omega, reconstructByte_next pred r col s (by omega) (by omega)⟩)

/-! ## The flip -/

/-- All that a flip step can answer. -/
theorem flipByte_cases (i k : Nat) (s : State) :
    (s.memSize ≤ s.geom.rawAddr i k ∧ flipByte i k s = .fault (.engineOutsideBuf (s.geom.rawAddr i k))) ∨
    (s.memSize ≤ s.geom.flipAddr i k ∧ flipByte i k s = .fault (.engineOutsideBuf (s.geom.flipAddr i k))) ∨
    (s.geom.rawAddr i k < s.memSize ∧ s.geom.flipAddr i k < s.memSize ∧
      flipByte i k s =
        .next ((s.setBufByte (s.geom.flipAddr i k) (s.bufByte (s.geom.rawAddr i k))).advanceFlip i k)) := by
  unfold flipByte
  by_cases h1 : s.memSize ≤ s.geom.rawAddr i k
  · exact .inl ⟨h1, by rw [if_pos h1]⟩
  · by_cases h2 : s.memSize ≤ s.geom.flipAddr i k
    · exact .inr (.inl ⟨h2, by rw [if_neg h1, if_pos h2]⟩)
    · exact .inr (.inr ⟨by omega, by omega, by rw [if_neg h1, if_neg h2]⟩)

/-! ## One engine step -/

/-- All that an engine step can do when it answers a next state. -/
theorem engineStep_cases (s t : State) (h : engineStep s = .next t) :
    (s.es = .idle ∧ t = s) ∨
    (∃ r f, s.es = .dfHdr r ∧ s.geom.ftypeAddr r < s.memSize ∧ s.bufByte (s.geom.ftypeAddr r) = FilterType.code f ∧
      t = { s with ft := f, es := .dfByte r 0 }) ∨
    (∃ r, s.es = .dfHdr r ∧ s.geom.ftypeAddr r < s.memSize ∧ 4 < (s.bufByte (s.geom.ftypeAddr r)).toNat ∧
      t = s.invalidFilterType r (s.bufByte (s.geom.ftypeAddr r))) ∨
    (∃ r col, s.es = .dfByte r col ∧ s.geom.dataAddr r col < s.memSize ∧ s.geom.rawAddr r col < s.memSize ∧
      t = (s.setBufByte (s.geom.rawAddr r col) (s.outByte s.ft.pred r col)).advanceDefilter r col) ∨
    (∃ i k, s.es = .flByte i k ∧ s.geom.rawAddr i k < s.memSize ∧ s.geom.flipAddr i k < s.memSize ∧
      t = (s.setBufByte (s.geom.flipAddr i k) (s.bufByte (s.geom.rawAddr i k))).advanceFlip i k) := by
  unfold engineStep at h
  cases hes : s.es with
  | idle =>
    simp only [hes, Host.Outcome.next.injEq] at h
    exact .inl ⟨rfl, h.symm⟩
  | dfHdr r =>
    simp only [hes, fetchRow] at h
    by_cases hm : s.memSize ≤ s.geom.ftypeAddr r
    · simp [hm] at h
    · rw [if_neg hm] at h
      rcases decode_ft_cases (s.bufByte (s.geom.ftypeAddr r)) with ⟨f, hf, hd⟩ | ⟨h4, hd⟩
      · simp only [hd, exec_filter_dfHdr f s r hes, Host.Outcome.next.injEq] at h
        exact .inr (.inl ⟨r, f, rfl, by omega, hf, h.symm⟩)
      · simp only [hd, Host.Outcome.next.injEq] at h
        exact .inr (.inr (.inl ⟨r, rfl, by omega, h4, h.symm⟩))
  | dfByte r col =>
    simp only [hes, exec_filter_dfByte s.ft s r col hes] at h
    rcases reconstructByte_cases s.ft.pred r col s with ⟨_, he⟩ | ⟨_, he⟩ | ⟨h1, h2, he⟩
    · simp [he] at h
    · simp [he] at h
    · simp only [he, Host.Outcome.next.injEq] at h
      exact .inr (.inr (.inr (.inl ⟨r, col, rfl, h1, h2, h.symm⟩)))
  | flByte i k =>
    simp only [hes] at h
    rcases flipByte_cases i k s with ⟨_, he⟩ | ⟨_, he⟩ | ⟨h1, h2, he⟩
    · simp [he] at h
    · simp [he] at h
    · simp only [he, Host.Outcome.next.injEq] at h
      exact .inr (.inr (.inr (.inr ⟨i, k, rfl, h1, h2, h.symm⟩)))

/-! ## Commands -/

/-- A command's meaning: it always answers a next state (42_commands.md R160). -/
theorem exec_command (c : Command) (s : State) : exec c.instr s = .next (s.startCommand c) := by
  cases c <;> rfl

/-- What `startCommand` leaves: the state itself while busy, else a rejection or the acceptance. -/
theorem startCommand_cases (c : Command) (s : State) :
    (s.busy = true ∧ s.startCommand c = s) ∨
    (s.busy = false ∧ ∃ code o i, code ≠ .none ∧ s.startCommand c = s.clearStatus.raiseError code o i) ∨
    (s.busy = false ∧ s.formatProblem = none ∧ c.configProblem s.regGeom s.memSize = none ∧ s.lengthProblem c = none ∧
      s.startCommand c = s.clearStatus.accept c) := by
  unfold State.startCommand
  cases hb : s.busy with
  | true => exact .inl ⟨rfl, if_pos rfl⟩
  | false =>
    refine .inr ?_
    simp only [Bool.false_eq_true, if_false, State.validateAndAccept]
    have hf : s.clearStatus.formatProblem = s.formatProblem := rfl
    have hm : s.clearStatus.memSize = s.memSize := rfl
    have hl : s.clearStatus.lengthProblem c = s.lengthProblem c := rfl
    rw [hf, regGeom_clearStatus, hm, hl]
    cases h1 : s.formatProblem with
    | some n => exact .inl ⟨trivial, _, _, _, by decide, rfl⟩
    | none =>
      cases h2 : c.configProblem s.regGeom s.memSize with
      | some n => exact .inl ⟨trivial, _, _, _, by decide, rfl⟩
      | none =>
        cases h3 : s.lengthProblem c with
        | some n => exact .inl ⟨trivial, _, _, _, by decide, rfl⟩
        | none => exact .inr ⟨trivial, rfl, rfl, rfl, rfl⟩

/-- The format check passes exactly on the legal format. -/
theorem formatProblem_none_iff (s : State) : s.formatProblem = none ↔ s.FormatLegal := by
  unfold State.formatProblem State.FormatLegal
  obtain ⟨p, es, opl, ft, geom, d, e, ec, eo, ei, di, ii, w, h, ⟨a, b, c, f⟩, il⟩ := s
  simp only [Format.mk.injEq]
  split
  · simp_all
  · split
    · simp_all
    · split
      · simp_all
      · split
        · simp_all
        · split <;> simp_all

/-- overlap(x, n, y, m) as the spec writes it (42_commands.md R164). -/
theorem overlaps_iff (p q : Region) :
    p.overlaps q = true ↔ p.base < q.base + q.size ∧ q.base < p.base + p.size := by
  unfold Region.overlaps
  simp only [Bool.and_eq_true, decide_eq_true_eq]

theorem leaves_iff (q : Region) (n : Nat) : q.leaves n = true ↔ n < q.base + q.size := by
  unfold Region.leaves
  simp only [decide_eq_true_eq]

theorem overlaps_false_iff (p q : Region) : p.overlaps q = false ↔ p.Apart q := by
  unfold Region.overlaps Region.Apart
  simp only [Bool.and_eq_false_iff, decide_eq_false_iff_not]
  omega

theorem leaves_false_iff (q : Region) (n : Nat) : q.leaves n = false ↔ q.base + q.size ≤ n := by
  unfold Region.leaves
  simp only [decide_eq_false_iff_not]
  omega

/-- The geometry and region check passes exactly when the command fits. -/
theorem configProblem_none_iff (c : Command) (g : Geom) (n : Nat) :
    c.configProblem g n = none ↔ c.Fits g n := by
  unfold Command.configProblem Command.Fits
  by_cases h1 : g.width = 0#32
  · simp [h1]
  by_cases h2 : g.height = 0#32
  · simp [h1, h2]
  simp only [h1, h2, if_false, ne_eq, not_false_eq_true, true_and]
  simp only [← leaves_false_iff, ← overlaps_false_iff]
  cases c <;> simp only [Command.usesIn, Command.usesOut, Bool.true_and, Bool.false_and] <;>
    cases g.inRegion.leaves n <;> cases g.rawRegion.leaves n <;> cases g.outRegion.leaves n <;>
    cases g.inRegion.overlaps g.rawRegion <;> cases g.rawRegion.overlaps g.outRegion <;>
    cases g.inRegion.overlaps g.outRegion <;> simp

/-- The stream-length check passes exactly when IN_LEN is IN_EXPECT or the command does not read IN. -/
theorem lengthProblem_none_iff (s : State) (c : Command) :
    s.lengthProblem c = none ↔ (c ≠ .flip → s.inLen.toNat = s.regGeom.inExpect) := by
  unfold State.lengthProblem
  cases c <;> simp [Command.usesIn]

/-- A command that is ready is accepted, one that is not is rejected: `startCommand` as its checks say. -/
theorem ready_iff (s : State) (c : Command) :
    s.ReadyFor c ↔
      s.formatProblem = none ∧ c.configProblem s.regGeom s.memSize = none ∧ s.lengthProblem c = none := by
  rw [formatProblem_none_iff, configProblem_none_iff, lengthProblem_none_iff]

/-- A ready command is accepted (42_commands.md R166). -/
theorem startCommand_ready (c : Command) (s : State) (hb : s.busy = false) (h : s.ReadyFor c) :
    s.startCommand c = s.clearStatus.accept c := by
  obtain ⟨h1, h2, h3⟩ := (ready_iff s c).mp h
  unfold State.startCommand State.validateAndAccept
  have hf : s.clearStatus.formatProblem = none := h1
  have hc : c.configProblem s.clearStatus.regGeom s.clearStatus.memSize = none := h2
  have hl : s.clearStatus.lengthProblem c = none := h3
  simp only [hb, Bool.false_eq_true, if_false, hf, hc, hl]

/-! ## Registers -/

@[simp] theorem regAt_index (r : Reg) : regAt r.index = some r := by cases r <;> decide

/-- The STATUS register stands at word index 2 and nowhere else (10_state.md R26). -/
theorem regAt_status_iff (i : RegIndex) : regAt i = some .status ↔ i = 2#6 := by
  revert i
  decide

/-- The CMD register stands at word index 1 and nowhere else (10_state.md R26). -/
theorem regAt_cmd_iff (i : RegIndex) : regAt i = some .cmd ↔ i = 1#6 := by
  revert i
  decide

/-- A register read as one update: the data returned and, for STATUS with BUSY = 0, the window ended. -/
theorem hostRegRead_eq (i : RegIndex) (s : State) :
    hostRegRead i s =
      { s with
        response := some (.reg (s.readPort i))
        window := if i = 2#6 ∧ s.busy = false then none else s.window } := by
  unfold hostRegRead
  by_cases hi : i = 2#6
  · rw [if_pos ((regAt_status_iff i).mpr hi)]
    unfold State.statusSeen
    by_cases hb : s.busy = true
    · have : ¬(i = 2#6 ∧ s.busy = false) := by simp [hb]
      rw [if_pos (show (s.respond _).busy = true from hb), if_neg this]
      rfl
    · have hb' : s.busy = false := by simpa using hb
      rw [if_neg (show ¬(s.respond _).busy = true from hb), if_pos ⟨hi, hb'⟩]
      rfl
  · have : ¬(i = 2#6 ∧ s.busy = false) := fun h => hi h.1
    rw [if_neg (fun h => hi ((regAt_status_iff i).mp h)), if_neg this]
    rfl

/-- A look at the interrupt line as one update: the level returned, and nothing else. -/
theorem hostIrqSample_eq (s : State) : hostIrqSample s = { s with response := some (.irq s.irq) } := rfl

/-- Whom a write is refused for (70_reset_and_hazards.md R232). -/
theorem writeOwned_iff (s : State) (a : Nat) :
    s.writeOwned a = true ↔ ∃ c, s.window = some c ∧ c.cmd.usesAt c.geom a = true := by
  unfold State.writeOwned
  cases s.window <;> simp

/-- Whom a read is refused for (70_reset_and_hazards.md R232). -/
theorem readOwned_iff (s : State) (a : Nat) :
    s.readOwned a = true ↔ ∃ c, s.window = some c ∧ c.cmd.writesAt c.geom a = true := by
  unfold State.readOwned
  cases s.window <;> simp

/-- A write to a register other than CMD changes that register alone, and a configuration register only when idle. -/
theorem writeReg_cases (r : Reg) (v : Word) (s : State) :
    s.writeReg r v = s ∨ s.writeReg r v = s.ackStatus v ∨ s.writeReg r v = s.setIntEn v ∨
    (s.busy = false ∧
      s.writeReg r v =
        { s with
          width := (s.writeReg r v).width, height := (s.writeReg r v).height, format := (s.writeReg r v).format
          interlace := (s.writeReg r v).interlace, inBase := (s.writeReg r v).inBase, inLen := (s.writeReg r v).inLen
          rawBase := (s.writeReg r v).rawBase, outBase := (s.writeReg r v).outBase }) := by
  cases hb : s.busy <;> cases r <;> simp [State.writeReg, hb]

/-- All that a register-port write can do: it always answers a next state. -/
theorem writePort_cases (i : RegIndex) (v : Word) (s t : State) (h : writePort i v s = .next t) :
    (∃ r, r ≠ .cmd ∧ regAt i = some r ∧ t = s.writeReg r v) ∨ t = s ∨
    (∃ c : Command, regAt i = some .cmd ∧ decode (.cmd v) = .ok c.instr ∧ t = s.startCommand c) ∨
    (regAt i = some .cmd ∧ t = s.illegalCommand v) := by
  unfold writePort at h
  split at h
  · rename_i hr
    unfold writeCommand at h
    rcases decode_cmd_cases v with ⟨_, hd⟩ | ⟨c, hd⟩ | hd
    · simp only [hd, exec, execNop, Host.Outcome.next.injEq] at h
      exact .inr (.inl h.symm)
    · simp only [hd, exec_command, Host.Outcome.next.injEq] at h
      exact .inr (.inr (.inl ⟨c, hr, hd, h.symm⟩))
    · simp only [hd, Host.Outcome.next.injEq] at h
      exact .inr (.inr (.inr ⟨hr, h.symm⟩))
  · rename_i r hne hr
    simp only [Host.Outcome.next.injEq] at h
    exact .inl ⟨r, hne, hr, h.symm⟩
  · simp only [Host.Outcome.next.injEq] at h
    exact .inr (.inl h.symm)

end Sys2Proof.Machine
end

