-- ==== Sys2Proof/Laws/PerInstr.lean ====
section
/-! SUPPORT. What is said instruction by instruction, about syntax alone: one lemma per constructor of Instr. -/

namespace Sys2Proof.Laws.Encoding

/-- The instruction's code decodes to it, and stands in the form the instruction is well-formed in and in no other. -/
def Statement (i : Instr) : Prop :=
  decode (encode i) = .ok i ∧ ∀ f : Form, i.wellFormedIn f = true ↔ f = (encode i).form

theorem none : Statement .none := ⟨rfl, fun f => by cases f <;> decide⟩
theorem sub : Statement .sub := ⟨rfl, fun f => by cases f <;> decide⟩
theorem up : Statement .up := ⟨rfl, fun f => by cases f <;> decide⟩
theorem avg : Statement .avg := ⟨rfl, fun f => by cases f <;> decide⟩
theorem paeth : Statement .paeth := ⟨rfl, fun f => by cases f <;> decide⟩
theorem nop : Statement .nop := ⟨rfl, fun f => by cases f <;> decide⟩
theorem defilter : Statement .defilter := ⟨rfl, fun f => by cases f <;> decide⟩
theorem flip : Statement .flip := ⟨rfl, fun f => by cases f <;> decide⟩
theorem convert : Statement .convert := ⟨rfl, fun f => by cases f <;> decide⟩

end Sys2Proof.Laws.Encoding
end

