-- ==== Sys2Proof/Laws/Step.lean ====
section
/-! SUPPORT. What one step can do, said once: the inversion of `step` into the engine's step, the host's access and the
reset input, and the small lemmas to run it forwards. -/

namespace Sys2Proof.Machine

/-! ## Forwards -/

theorem withInputs_self (s : State) (l : List Input) (h : s.inputs = l) : s.withInputs l = s := by
  subst h; rfl

/-- When the engine moves next, a step is an engine step. -/
theorem step_engineNext (s : State) (rest : List Input) (h : s.engineNext rest) :
    step s = engineStep (s.withInputs rest) := by
  obtain ⟨hr, hi | ⟨hi, rfl⟩⟩ := h
  · simp only [step, runInput, hi, engineTurn, withInputs_inReset, hr, Bool.false_eq_true, if_false]
  · simp only [step, runInput, hi, engineTurn, hr, Bool.false_eq_true, if_false]
    rw [withInputs_self s [] hi]

/-- When the host moves next, a step is its access. -/
theorem step_hostNext (s : State) (op : HostOp) (rest : List Input) (h : s.hostNext op rest) :
    step s = hostAccess op (s.withInputs rest).clearResponse := by
  obtain ⟨hr, hi⟩ := h
  simp only [step, runInput, hi, hostTurn, withInputs_inReset, hr, Bool.false_eq_true, if_false]

/-- An engine step with the engine alone. -/
theorem step_engineAlone (s : State) (h : s.engineAlone) : step s = engineStep s := by
  obtain ⟨hr, hi⟩ := h
  simp [step, runInput, hi, engineTurn, hr]

theorem runSteps_zero (s : State) : runSteps 0 s = .next s := rfl

theorem runSteps_succ_of_next (n : Nat) (s t : State) (h : step s = .next t) :
    runSteps (n + 1) s = runSteps n t := by
  simp [runSteps, h]

/-- Runs compose. -/
theorem runSteps_add (m n : Nat) (s t : State) (h : runSteps m s = .next t) :
    runSteps (m + n) s = runSteps n t := by
  induction m generalizing s with
  | zero =>
    simp only [runSteps_zero, Host.Outcome.next.injEq] at h
    rw [h, Nat.zero_add]
  | succ m ih =>
    rw [Nat.add_right_comm]
    simp only [runSteps] at h ⊢
    cases hs : step s with
    | next u => simp only [hs] at h; exact ih u h
    | fault f => simp [hs] at h
    | refused q => simp [hs] at h

/-! ## Backwards -/

/-- All that a host access can do when it answers a next state. -/
theorem hostAccess_cases (op : HostOp) (s t : State) (h : hostAccess op s = .next t) :
    (∃ i, op = .regRead i ∧ t = hostRegRead i s) ∨
    (∃ i v, op = .regWrite i v ∧ writePort i v s = .next t) ∨
    (∃ a d, op = .memRead a ∧ s.readOwned a.toNat = false ∧ t = s.respond (.mem d)) ∨
    (∃ a v, op = .memWrite a v ∧ s.writeOwned a.toNat = false ∧
      ((a.toNat < s.memSize ∧ t = s.setBufByte a.toNat v) ∨ (s.memSize ≤ a.toNat ∧ t = s))) ∨
    (op = .irqSample ∧ t = hostIrqSample s) := by
  cases op with
  | regRead i =>
    simp only [hostAccess, Host.Outcome.next.injEq] at h
    exact .inl ⟨i, rfl, h.symm⟩
  | regWrite i v => exact .inr (.inl ⟨i, v, rfl, h⟩)
  | memRead a =>
    simp only [hostAccess, hostMemRead] at h
    cases ho : s.readOwned a.toNat with
    | true => simp [ho] at h
    | false =>
      simp only [ho, Bool.false_eq_true, if_false] at h
      split at h
      all_goals
        simp only [Host.Outcome.next.injEq] at h
        exact .inr (.inr (.inl ⟨a, _, rfl, ho, h.symm⟩))
  | memWrite a v =>
    simp only [hostAccess, hostMemWrite] at h
    cases ho : s.writeOwned a.toNat with
    | true => simp [ho] at h
    | false =>
      simp only [ho, Bool.false_eq_true, if_false] at h
      split at h
      · simp only [Host.Outcome.next.injEq] at h
        exact .inr (.inr (.inr (.inl ⟨a, v, rfl, ho, .inl ⟨‹_›, h.symm⟩⟩)))
      · simp only [Host.Outcome.next.injEq] at h
        exact .inr (.inr (.inr (.inl ⟨a, v, rfl, ho, .inr ⟨by omega, h.symm⟩⟩)))
  | irqSample =>
    simp only [hostAccess, Host.Outcome.next.injEq] at h
    exact .inr (.inr (.inr (.inr ⟨rfl, h.symm⟩)))

/-- All that a step can do when it answers a next state. -/
theorem step_cases (s t : State) (h : step s = .next t) :
    (∃ rest, s.engineNext rest ∧ engineStep (s.withInputs rest) = .next t) ∨
    (∃ op rest, s.hostNext op rest ∧ hostAccess op (s.withInputs rest).clearResponse = .next t) ∨
    (s.inReset = true ∧ ∃ rest, t = s.withInputs rest ∨ t = (s.withInputs rest).clearResponse) ∨
    (∃ rest, s.inputs = .resetAssert :: rest ∧ t = (s.withInputs rest).assertReset) ∨
    (∃ rest, s.inputs = .resetRelease :: rest ∧ t = (s.withInputs rest).releaseReset) := by
  by_cases hr : s.inReset = true
  case neg =>
    rw [Bool.not_eq_true] at hr
    cases hi : s.inputs with
    | nil =>
      rw [step_engineNext s [] ⟨hr, .inr ⟨hi, rfl⟩⟩] at h
      exact .inl ⟨[], ⟨hr, .inr ⟨hi, rfl⟩⟩, h⟩
    | cons x rest =>
      cases x with
      | host op =>
        rw [step_hostNext s op rest ⟨hr, hi⟩] at h
        exact .inr (.inl ⟨op, rest, ⟨hr, hi⟩, h⟩)
      | engine =>
        rw [step_engineNext s rest ⟨hr, .inl hi⟩] at h
        exact .inl ⟨rest, ⟨hr, .inl hi⟩, h⟩
      | resetAssert =>
        simp only [step, runInput, hi, Host.Outcome.next.injEq] at h
        exact .inr (.inr (.inr (.inl ⟨rest, rfl, h.symm⟩)))
      | resetRelease =>
        simp only [step, runInput, hi, Host.Outcome.next.injEq] at h
        exact .inr (.inr (.inr (.inr ⟨rest, rfl, h.symm⟩)))
  case pos =>
    cases hi : s.inputs with
    | nil =>
      simp only [step, runInput, hi, engineTurn, hr, if_true, Host.Outcome.next.injEq] at h
      exact .inr (.inr (.inl ⟨hr, [], .inl (by rw [withInputs_self s [] hi, h])⟩))
    | cons x rest =>
      cases x with
      | host op =>
        simp only [step, runInput, hi, hostTurn, withInputs_inReset, hr, if_true, Host.Outcome.next.injEq] at h
        exact .inr (.inr (.inl ⟨hr, rest, .inr h.symm⟩))
      | engine =>
        simp only [step, runInput, hi, engineTurn, withInputs_inReset, hr, if_true, Host.Outcome.next.injEq] at h
        exact .inr (.inr (.inl ⟨hr, rest, .inl h.symm⟩))
      | resetAssert =>
        simp only [step, runInput, hi, Host.Outcome.next.injEq] at h
        exact .inr (.inr (.inr (.inl ⟨rest, rfl, h.symm⟩)))
      | resetRelease =>
        simp only [step, runInput, hi, Host.Outcome.next.injEq] at h
        exact .inr (.inr (.inr (.inr ⟨rest, rfl, h.symm⟩)))

end Sys2Proof.Machine
end

