-- ==== Sys2Proof/Tests/Slice0.lean ====
section
/-! SUPPORT. The model's own tests (values from spec/95_test_vectors.md) and, for every statement with hypotheses, states
that meet them, each clause at a boundary of its range. -/

namespace Sys2Proof.Tests

open Sys2Proof Sys2Proof.Machine

/-! ## States to test on -/

/-- An idle block with MEM_SIZE 256, the given geometry and bases, and BUF bytes. -/
def idleState (w h inBase inLen rawBase outBase : Nat) (m : List Host.Cell) : State :=
  { State.afterReset { memSize := 256, regBase := 0 } 0 false [] with
    width := BitVec.ofNat 32 w, height := BitVec.ofNat 32 h, inBase := BitVec.ofNat 32 inBase
    inLen := BitVec.ofNat 32 inLen, rawBase := BitVec.ofNat 32 rawBase, outBase := BitVec.ofNat 32 outBase, buf := m }

/-- `base` idle, the base configuration of §2.11: a 2×2 image, IN at 0, RAW at 0x20, OUT at 0x40. -/
def base (m : List Host.Cell) : State := idleState 2 2 0 18 0x20 0x40 m

/-- `base` running command `c` at `es` with `f` latched. -/
def running (c : Command) (es : EngineState) (f : FilterType) (m : List Host.Cell) : State :=
  { (base m).accepted c es with ft := f }

/-- Byte (1, 7) of a 2×2 image next, the last one: X at 0x11, left at 0x2B, up at 0x27, upLeft at 0x23. -/
def lastByte (c : Command) (f : FilterType) (x a b d : Byte) : State :=
  running c (.dfByte 1 7) f [(0x11, x), (0x23, d), (0x27, b), (0x2B, a)]

/-- The same state with its next move given. -/
def withNext (l : List Input) (s : State) : State := { s with inputs := l }

/-- The host's move `op` next. -/
def hostMove (op : HostOp) (s : State) : State := withNext [.host op] s

/-- What holds of the next state an outcome answers. -/
def after (o : Host.Outcome State Fault Refusal) (p : State → Bool) : Bool :=
  match o with
  | .next t => p t
  | .fault _ => false
  | .refused _ => false

/-- The outcome is the refusal `q`. -/
def isRefused (o : Host.Outcome State Fault Refusal) (q : Refusal) : Bool :=
  match o with
  | .next _ => false
  | .fault _ => false
  | .refused r => decide (r = q)

/-! ## Well-formedness, decoder, encoder -/

theorem test_wellFormed_row_is_no_command : Instr.paeth.wellFormedIn .cmd = false := by decide
theorem test_wellFormed_command_is_no_row : Instr.defilter.wellFormedIn .ft = false := by decide
theorem test_wellFormed_each : Instr.paeth.wellFormedIn .ft = true ∧ Instr.defilter.wellFormedIn .cmd = true := by decide

/-- 30_encoding.md R83, each byte written out. -/
theorem test_decode_rows :
    decode (.ft 0b00000000#8) = .ok .none ∧ decode (.ft 0b00000001#8) = .ok .sub ∧
    decode (.ft 0b00000010#8) = .ok .up ∧ decode (.ft 0b00000011#8) = .ok .avg ∧
    decode (.ft 0b00000100#8) = .ok .paeth := ⟨rfl, rfl, rfl, rfl, rfl⟩

/-- 30_encoding.md R84, each word written out. -/
theorem test_decode_commands :
    decode (.cmd 0b00000000000000000000000000000000#32) = .ok .nop ∧
    decode (.cmd 0b00000000000000000000000000000001#32) = .ok .defilter ∧
    decode (.cmd 0b00000000000000000000000000000010#32) = .ok .flip ∧
    decode (.cmd 0b00000000000000000000000000000011#32) = .ok .convert := ⟨rfl, rfl, rfl, rfl⟩

/-- §2.11's illegal words and 30_encoding.md R86's first and last illegal byte. -/
theorem test_decode_illegal :
    decode (.ft 0x05#8) = .error (.invalidFilterType 0x05#8) ∧
    decode (.ft 0xFF#8) = .error (.invalidFilterType 0xFF#8) ∧
    decode (.cmd 0x00000004#32) = .error (.illegalCommand 0x00000004#32) ∧
    decode (.cmd 0x0000000F#32) = .error (.illegalCommand 0x0000000F#32) ∧
    decode (.cmd 0x00000010#32) = .error (.illegalCommand 0x00000010#32) ∧
    decode (.cmd 0x00000011#32) = .error (.illegalCommand 0x00000011#32) ∧
    decode (.cmd 0x80000003#32) = .error (.illegalCommand 0x80000003#32) :=
  ⟨rfl, rfl, rfl, rfl, rfl, rfl, rfl⟩

theorem test_encode : encode .avg = .ft 0x03#8 ∧ encode .convert = .cmd 0x00000003#32 := by decide

theorem test_decodeTableWord :
    decodeTableWord 8 4 = some .paeth ∧ decodeTableWord 8 5 = Option.none ∧
    decodeTableWord 32 0 = some .nop ∧ decodeTableWord 32 3 = some .convert ∧
    decodeTableWord 32 4 = Option.none ∧ decodeTableWord 16 0 = Option.none := by decide

/-- The very next step after a placement runs the code: a row opcode is latched, a command is executed. -/
theorem test_withFetchWord_row :
    after (step (State.reset.withFetchWord 8 3)) (fun t => decide (t.ft = .avg ∧ t.es = .dfByte 0 0)) = true := by
  rfl

theorem test_withFetchWord_command :
    after (step (State.reset.withFetchWord 32 2)) (fun t => decide (t.error = true ∧ t.errCode = .configError)) = true := by
  rfl

/-! ## The row opcodes (§2.1 to §2.5) -/

theorem test_none_copies :
    after (exec .none (lastByte .defilter .none 0xFF#8 1#8 2#8 3#8)) (fun t => t.bufByte 0x2F == 0xFF#8) = true := by
  decide

theorem test_sub_wraps :
    after (exec .sub (lastByte .defilter .sub 0xFA#8 0x0A#8 7#8 7#8)) (fun t => t.bufByte 0x2F == 0x04#8) = true := by
  decide

theorem test_up_wraps :
    after (exec .up (lastByte .defilter .up 0x64#8 0#8 0xC8#8 0#8)) (fun t => t.bufByte 0x2F == 0x2C#8) = true := by
  decide

theorem test_avg_sum_is_exact :
    after (exec .avg (lastByte .defilter .avg 5#8 200#8 100#8 0#8)) (fun t => t.bufByte 0x2F == 0x9B#8) = true := by
  decide

theorem test_avg_rounds_down :
    after (exec .avg (lastByte .defilter .avg 0#8 3#8 4#8 0#8)) (fun t => t.bufByte 0x2F == 3#8) = true := by
  decide

theorem test_paeth_is_exact :
    after (exec .paeth (lastByte .defilter .paeth 1#8 100#8 200#8 10#8)) (fun t => t.bufByte 0x2F == 0xC9#8) = true := by
  decide

theorem test_paeth_tie_prefers_left :
    after (exec .paeth (lastByte .defilter .paeth 0#8 0#8 15#8 10#8)) (fun t => t.bufByte 0x2F == 0#8) = true := by
  decide

/-- §2.8's second line: row 1's type byte is 5. -/
theorem test_invalid_filter_type :
    after (step (running .defilter (.dfHdr 1) .none [(9, 5#8)]))
      (fun t => t.statusWord == 4#32 && t.errOffset == 9#32 && t.errInfo == 5#32) = true := by
  decide

/-! ## The commands (§2.9, §2.11) -/

theorem test_nop_changes_nothing :
    after (exec .nop (base [])) (fun t => decide (t = base [])) = true := by decide

theorem test_defilter_accepted :
    after (exec .defilter (base [])) (fun t => t.statusWord == 0x11#32 && t.es == .dfHdr 0) = true := by decide

theorem test_defilter_overlap_rejected :
    after (exec .defilter { base [] with rawBase := 0x10#32 })
      (fun t => t.statusWord == 4#32 && t.errCode == .configError && t.errInfo == 6#32) = true := by decide

theorem test_flip_accepted :
    after (exec .flip (base [])) (fun t => t.statusWord == 0x21#32 && t.es == .flByte 0 0) = true := by decide

/-- §2.9's 2×2 flip: byte 7 of source row 0 goes to byte 7 of output row 1, 0x4F. -/
theorem test_flip_byte :
    after (step (running .flip (.flByte 0 7) .none [(0x27, 0xAB#8)]))
      (fun t => t.bufByte 0x4F == 0xAB#8 && t.es == .flByte 1 0) = true := by decide

theorem test_convert_accepted :
    after (exec .convert (base [])) (fun t => t.statusWord == 0x11#32 && t.opl == .convert) = true := by decide

/-- The last defilter byte of a CONVERT starts the flip (40_defilter.md R109). -/
theorem test_convert_goes_on_to_flip :
    after (step (lastByte .convert .sub 1#8 2#8 0#8 0#8)) (fun t => t.statusWord == 0x21#32 && t.es == .flByte 0 0) = true := by
  decide

/-- Program P4, lines 9 to 12: the format is checked first, an illegal word before it. -/
theorem test_format_before_length :
    after (exec .defilter { base [] with format := Format.ofWord 0x00000610#32, inLen := 0#32 })
      (fun t => t.errCode == .unsupportedFormat && t.errInfo == 1#32 && t.errOffset == 0xFFFFFFFF#32) = true := by decide

theorem test_illegal_word :
    after (step (hostMove (.regWrite 1#6 0x13#32) (base [])))
      (fun t => t.errCode == .illegalCommand && t.errInfo == 0x13#32) = true := by decide

/-! ## Ports (§2.12) -/

theorem test_reset_reads :
    State.reset.readPort 0#6 = 0x504E4744#32 ∧ State.reset.readPort 9#6 = 0x608#32 ∧ State.reset.readPort 63#6 = 0#32 := by
  decide

theorem test_busy_write_dropped :
    after (step (hostMove (.regWrite 7#6 9#32) (running .flip (.flByte 0 0) .none [])))
      (fun t => t.width == 2#32) = true := by decide

theorem test_mem_read_above_mem_size :
    after (step (hostMove (.memRead 256#32) (base []))) (fun t => t.response == some (.mem 0#8)) = true := by decide

theorem test_owned_write_refused :
    isRefused (step (hostMove (.memWrite 0x2F#32 0#8) (running .defilter (.dfHdr 0) .none [])))
      (.ownedWrite 0x2F#32) = true := by decide

/-- The interrupt look does not end the window: a read of OUT before the STATUS read stays refused (R232). -/
theorem test_irq_look_keeps_window :
    after (step (hostMove .irqSample { running .flip (.flByte 1 7) .none [] with es := .idle, done := true, doneIE := true }))
      (fun t => t.response == some (.irq true) && t.readOwned 0x40) = true := by decide

/-- §2.12's ERR_* offsets: ERR_CODE at 0x0C, ERR_OFFSET at 0x10, ERR_INFO at 0x14, after program P4's line 5. -/
theorem test_error_registers_read :
    after (exec .defilter { base [] with inLen := 0x11#32 })
      (fun t => t.readPort 3#6 == 2#32 && t.readPort 4#6 == 0x11#32 && t.readPort 5#6 == 0#32) = true := by decide

/-! ## Witnesses: the hypotheses of the statements can be met -/

/-- BUF of a 1×1 image filtered with SUB, IN at 0. -/
def tinyIn : List Host.Cell := [(0, 1#8), (1, 10#8), (2, 20#8), (3, 30#8), (4, 40#8)]

/-- A 1×1 image, IN at 0, RAW at 0x20, OUT at 0x40, IN_LEN right. -/
def tiny (m : List Host.Cell) : State := idleState 1 1 0 5 0x20 0x40 m

/-- `running` with RAW at the very end of BUF: its last byte has address MEM_SIZE - 1. -/
def atTop (es : EngineState) : State :=
  { idleState 2 2 0 18 0xF0 0x40 [] with
    es := es, opl := .defilter, geom := (idleState 2 2 0 18 0xF0 0x40 []).regGeom }

theorem witness_DecodeAgreesWithEncode :
    decode (.ft 4#8) = .ok .paeth ∧ 4 < (5#8 : Byte).toNat ∧ 4 < (255#8 : Byte).toNat ∧
    (0x10#32 : Word).extractLsb' 4 28 ≠ 0#28 ∧ 4 ≤ ((4#32 : Word).extractLsb' 0 4).toNat ∧
    4 ≤ ((15#32 : Word).extractLsb' 0 4).toNat := by decide

theorem witness_StepRunsDecodedInstruction_header :
    let s := running .defilter (.dfHdr 1) .none [(9, 4#8)]
    s.engineNext [] ∧ s.es = .dfHdr 1 ∧ s.geom.ftypeAddr 1 < s.memSize ∧
      decode (.ft (s.bufByte (s.geom.ftypeAddr 1))) = .ok .paeth := by decide

theorem witness_StepRunsDecodedInstruction_byte :
    let s := withNext [.engine] (running .defilter (.dfByte 1 7) .up [])
    s.engineNext [] ∧ s.es = .dfByte 1 7 := by decide

theorem witness_StepRunsDecodedInstruction_command :
    (hostMove (.regWrite 1#6 3#32) (base [])).hostNext (.regWrite 1#6 3#32) [] ∧ decode (.cmd 3#32) = .ok .convert := by
  decide

/-- NoneCopiesTheByte, SubAddsLeft, UpAddsUp, AvgAddsHalfTheSum, PaethAddsNearest: the first byte, the last byte of the
first pixel, the first of the second, and the last of BUF. -/
theorem witness_filters :
    ∀ rc ∈ [(0, 0), (0, 3), (0, 4), (1, 3), (1, 4), (1, 7)],
      (atTop (.dfByte rc.1 rc.2)).es = .dfByte rc.1 rc.2 ∧
      (atTop (.dfByte rc.1 rc.2)).geom.dataAddr rc.1 rc.2 < (atTop (.dfByte rc.1 rc.2)).memSize ∧
      (atTop (.dfByte rc.1 rc.2)).geom.rawAddr rc.1 rc.2 < (atTop (.dfByte rc.1 rc.2)).memSize := by decide

theorem witness_filters_reach_the_top :
    (atTop (.dfByte 1 7)).geom.rawAddr 1 7 + 1 = (atTop (.dfByte 1 7)).memSize := by decide

theorem witness_PredictorsOfBytesAreBytes : (255 : Nat) < 256 ∧ FilterType.avg.pred 255 255 0 = 255 := by decide

theorem witness_FiltersCoincideAtEdges :
    (atTop (.dfByte 0 7)).es = .dfByte 0 7 ∧ (atTop (.dfByte 1 3)).es = .dfByte 1 3 := by decide

/-- Each row opcode answers a next state, in mid-row and at completion. -/
theorem witness_RowOpcodesWriteOneByteOnly :
    ∀ i ∈ [Instr.none, Instr.sub, Instr.up, Instr.avg, Instr.paeth], ∀ rc ∈ [(0, 0), (1, 7)],
      after (exec i (atTop (.dfByte rc.1 rc.2))) (fun t => t.done == decide (rc = (1, 7))) = true := by decide

theorem witness_RowOpcodesLatchAtHeader : (atTop (.dfHdr 1)).es = .dfHdr 1 := by decide

theorem witness_RowOpcodesRefusedOffRow :
    (base []).es = .idle ∧ ∃ j k, (running .flip (.flByte 1 7) .none []).es = .flByte j k := ⟨rfl, 1, 7, rfl⟩

theorem witness_RowHeaderDispatchesOrRaises :
    ∀ b ∈ [0#8, 4#8, 5#8, 255#8],
      let s := running .defilter (.dfHdr 1) .none [(9, b)]
      s.engineNext [] ∧ s.es = .dfHdr 1 ∧ s.geom.ftypeAddr 1 < s.memSize ∧
        s.bufByte (s.geom.ftypeAddr 1) = b := by decide

/-- Both commands; addresses at both ends of RAW and OUT and just outside them. -/
theorem witness_ErrorDrawsWriteRegionsOnly :
    (∀ c ∈ [Command.defilter, Command.convert],
      let s := running c (.dfHdr 1) .none [(9, 5#8)]
      s.engineNext [] ∧ s.es = .dfHdr 1 ∧ s.geom.ftypeAddr 1 < s.memSize ∧
        4 < (s.bufByte (s.geom.ftypeAddr 1)).toNat ∧ s.opl ≠ .flip) ∧
    (∀ a ∈ [0x20, 0x2F], (base []).rawBase.toNat ≤ a ∧ a < (base []).rawBase.toNat + (base []).regGeom.rawBytes) ∧
    (∀ a ∈ [0x40, 0x4F], (base []).outBase.toNat ≤ a ∧ a < (base []).outBase.toNat + (base []).regGeom.rawBytes) ∧
    (∀ a ∈ [0x1F, 0x30, 0x3F, 0x50], Command.convert.writesAt (base []).regGeom a = false) := by decide

theorem witness_ErrorDrawsWriteRegionsOnly_command :
    let s := hostMove (.regWrite 1#6 4#32) (base [])
    s.hostNext (.regWrite 1#6 4#32) [] ∧ after (step s) (fun t => t.error) = true := by decide

/-- The four ways on from a data byte: the next byte, the next row, the flip phase, completion. -/
theorem witness_ReconstructionStepWritesAndAdvances :
    ∀ q ∈ [(Command.defilter, 0, 6), (.defilter, 0, 7), (.convert, 1, 7), (.defilter, 1, 7)],
      let s := running q.1 (.dfByte q.2.1 q.2.2) .avg []
      s.engineNext [] ∧ s.es = .dfByte q.2.1 q.2.2 ∧ s.geom.dataAddr q.2.1 q.2.2 < s.memSize ∧
        s.geom.rawAddr q.2.1 q.2.2 < s.memSize ∧ s.geom.rowBytes = 8 ∧ s.geom.rows = 2 ∧ s.opl = q.1 := by decide

/-- The three ways on from a flipped byte. -/
theorem witness_FlipStepCopiesAndAdvances :
    ∀ q ∈ [(0, 6), (0, 7), (1, 7)],
      let s := running .flip (.flByte q.1 q.2) .none []
      s.engineNext [] ∧ s.es = .flByte q.1 q.2 ∧
        s.geom.rawBase.toNat + q.1 * s.geom.rowBytes + q.2 < s.memSize ∧
        s.geom.outBase.toNat + (s.geom.height.toNat - 1 - q.1) * s.geom.rowBytes + q.2 < s.memSize := by decide

theorem witness_ReadyCommandsAreAccepted :
    (base []).busy = false ∧ (base []).ReadyFor .defilter ∧ (base []).ReadyFor .flip ∧ (base []).ReadyFor .convert :=
  ⟨by decide, by decide, by decide, by decide⟩

/-- A region may end exactly at MEM_SIZE and regions may touch. -/
theorem witness_ReadyCommandsAreAccepted_tight : (idleState 2 2 0 18 18 240 []).ReadyFor .convert := by decide

theorem witness_FormatCheckReportsFirstField :
    let f := fun v : Word => { base [] with format := Format.ofWord v }
    (f 0x00000010#32).busy = false ∧ (f 0x00000010#32).format.bitDepth ≠ 8#8 ∧
    (f 0x00000208#32).format.bitDepth = 8#8 ∧ (f 0x00000208#32).format.colorType ≠ 6#8 ∧
    (f 0x00010608#32).format.colorType = 6#8 ∧ (f 0x00010608#32).format.compression ≠ 0#8 ∧
    (f 0x01000608#32).format.compression = 0#8 ∧ (f 0x01000608#32).format.filterMethod ≠ 0#8 ∧
    (base []).format = Format.ofWord 0x00000608#32 ∧ { base [] with interlace := 1#8 }.interlace ≠ 0#8 := by decide

/-- The geometry of `base` with other bases, for each sub-check of 42_commands.md R164 the first that fails. -/
def badState : Nat → State
  | 1 => { base [] with width := 0#32 }
  | 2 => { base [] with height := 0#32 }
  | 3 => { base [] with inBase := 239#32 }
  | 4 => { base [] with rawBase := 241#32 }
  | 5 => { base [] with outBase := 241#32 }
  | 6 => { base [] with rawBase := 17#32 }
  | 7 => { base [] with outBase := 47#32 }
  | 8 => { base [] with outBase := 17#32, rawBase := 0x40#32 }
  | _ => base []

theorem witness_RegionCheckReportsFirstSubCheck (n : Nat) (h1 : 1 ≤ n) (h8 : n ≤ 8) :
    (badState n).busy = false ∧ (badState n).FormatLegal ∧ (badState n).subCheckFails .convert n ∧
      ∀ m, 1 ≤ m → m < n → ¬(badState n).subCheckFails .convert m := by
  have hn : n = 1 ∨ n = 2 ∨ n = 3 ∨ n = 4 ∨ n = 5 ∨ n = 6 ∨ n = 7 ∨ n = 8 := by omega
  rcases hn with rfl | rfl | rfl | rfl | rfl | rfl | rfl | rfl
  all_goals
    refine ⟨by decide, by decide, by simp only [State.subCheckFails]; decide, fun m hm hm' => ?_⟩
    match m with
    | 0 => omega
    | 1 => first | omega | (simp only [State.subCheckFails]; decide)
    | 2 => first | omega | (simp only [State.subCheckFails]; decide)
    | 3 => first | omega | (simp only [State.subCheckFails]; decide)
    | 4 => first | omega | (simp only [State.subCheckFails]; decide)
    | 5 => first | omega | (simp only [State.subCheckFails]; decide)
    | 6 => first | omega | (simp only [State.subCheckFails]; decide)
    | 7 => first | omega | (simp only [State.subCheckFails]; decide)
    | m + 8 => omega

theorem witness_LengthCheckReportsMismatch :
    ∀ c ∈ [Command.defilter, .flip, .convert], ∀ len ∈ [17#32, 19#32],
      let s := { base [] with inLen := len }
      s.busy = false ∧ s.FormatLegal ∧ c.configProblem s.regGeom s.memSize = Option.none ∧
        s.inLen.toNat ≠ s.height.toNat * (1 + 4 * s.width.toNat) := by
  intro c hc len hl
  simp only [List.mem_cons, List.not_mem_nil, or_false] at hc hl
  rcases hc with rfl | rfl | rfl <;> rcases hl with rfl | rfl <;> and_intros <;> decide

theorem witness_LengthCheck_no_sub_check_fails (c : Command) (m : Nat) : ¬(base []).subCheckFails c m := by
  match m with
  | 0 => exact id
  | 1 => simp only [State.subCheckFails]; decide
  | 2 => simp only [State.subCheckFails]; decide
  | 3 => cases c <;> simp only [State.subCheckFails] <;> decide
  | 4 => simp only [State.subCheckFails]; decide
  | 5 => cases c <;> simp only [State.subCheckFails] <;> decide
  | 6 => cases c <;> simp only [State.subCheckFails] <;> decide
  | 7 => cases c <;> simp only [State.subCheckFails] <;> decide
  | 8 => cases c <;> simp only [State.subCheckFails] <;> decide
  | _ + 9 => exact id

theorem witness_IllegalWordRaisesIllegalCommand :
    ∀ w ∈ [4#32, 15#32, 16#32, 0x80000003#32],
      let s := hostMove (.regWrite 1#6 w) (base [])
      s.busy = false ∧ s.hostNext (.regWrite 1#6 w) [] ∧
        (w.extractLsb' 4 28 ≠ 0#28 ∨ 4 ≤ (w.extractLsb' 0 4).toNat) := by
  intro w hw
  simp only [List.mem_cons, List.not_mem_nil, or_false] at hw
  rcases hw with rfl | rfl | rfl | rfl <;> and_intros <;> decide

/-- StatusWriteClearsOnly, InterruptFollowsStatusAndEnables, BusyDropsConfigurationWrites, IdleConfigurationWritesReadBack,
FixedRegistersAndChannelMasks: a host write at every word index, idle and busy. -/
theorem witness_hostNext_writes (i : RegIndex) (v : Word) :
    (hostMove (.regWrite i v) (base [])).hostNext (.regWrite i v) [] ∧ (hostMove (.regWrite i v) (base [])).busy = false ∧
    (hostMove (.regWrite i v) (atTop (.dfHdr 0))).hostNext (.regWrite i v) [] ∧
    (hostMove (.regWrite i v) (atTop (.dfHdr 0))).busy = true := ⟨⟨rfl, rfl⟩, rfl, ⟨rfl, rfl⟩, rfl⟩

/-- BusyDropsConfigurationWrites, RegisterReadsHaveNoSideEffect: a host read at every word index, idle and busy. -/
theorem witness_hostNext_reads (i : RegIndex) :
    (hostMove (.regRead i) (base [])).hostNext (.regRead i) [] ∧ (hostMove (.regRead i) (base [])).busy = false ∧
    (hostMove (.regRead i) (atTop (.dfHdr 0))).hostNext (.regRead i) [] ∧
    (hostMove (.regRead i) (atTop (.dfHdr 0))).busy = true := ⟨⟨rfl, rfl⟩, rfl, ⟨rfl, rfl⟩, rfl⟩

theorem witness_FixedRegistersAndChannelMasks :
    (22 ≤ (22#6 : RegIndex).toNat) ∧ (22 ≤ (63#6 : RegIndex).toNat) ∧ (15 ≤ (15#6 : RegIndex).toNat) := by decide

theorem witness_RegisterReadsHideTheEngine :
    let s := running .defilter (.dfHdr 0) .none []
    let t := running .defilter (.dfByte 1 7) .paeth [(0x20, 9#8)]
    t = { s with
          es := t.es, opl := t.opl, ft := t.ft, geom := t.geom, buf := t.buf, bufEpoch := t.bufEpoch
          draws := t.draws, window := t.window, inReset := t.inReset, inputs := t.inputs
          response := t.response, params := t.params } ∧
      t.phase = s.phase := by decide

/-- The last byte of BUF and the first address above it, idle and, outside the regions, busy. -/
theorem witness_BufPortReadsAndWritesOneByte :
    ∀ a ∈ [0#32, 255#32, 256#32, 0xFFFFFFFF#32],
      let r := hostMove (.memRead a) (base [])
      let w := hostMove (.memWrite a 7#8) (base [])
      r.hostNext (.memRead a) [] ∧ r.readOwned a.toNat = false ∧
      w.hostNext (.memWrite a 7#8) [] ∧ w.writeOwned a.toNat = false := by
  intro a ha
  simp only [List.mem_cons, List.not_mem_nil, or_false] at ha
  rcases ha with rfl | rfl | rfl | rfl <;> and_intros <;> decide

theorem witness_BufPort_busy :
    (running .defilter (.dfHdr 0) .none []).readOwned 0x11 = false ∧
    (running .defilter (.dfHdr 0) .none []).writeOwned 0x12 = false ∧
    (running .defilter (.dfHdr 0) .none []).writeOwned 0x30 = false := by decide

/-- A CONVERT that runs, and one that has completed with no STATUS read since. -/
theorem witness_OpenWindowOwnsItsRegions :
    (running .convert (.dfHdr 0) .none []).Inv ∧ (running .convert (.dfHdr 0) .none []).busy = true ∧
    { running .convert (.dfHdr 0) .none [] with es := .idle, done := true }.Inv ∧
    { running .convert (.dfHdr 0) .none [] with es := .idle, done := true }.window =
      some { cmd := .convert, geom := (base []).regGeom } := by
  and_intros <;> decide

/-- Both ends of IN, RAW and OUT, refused after completion as they are while the command runs. -/
theorem witness_OpenWindowOwnsItsRegions_after_completion :
    ∀ a ∈ [0, 0x11, 0x20, 0x2F, 0x40, 0x4F],
      let s := hostMove (.memWrite (BitVec.ofNat 32 a) 0#8)
        { running .convert (.dfHdr 0) .none [] with es := .idle, done := true }
      s.hostNext (.memWrite (BitVec.ofNat 32 a) 0#8) [] ∧ s.writeOwned a = true ∧
        (s.readOwned a = true ↔ 0x20 ≤ a) := by
  intro a ha
  simp only [List.mem_cons, List.not_mem_nil, or_false] at ha
  rcases ha with rfl | rfl | rfl | rfl | rfl | rfl <;> and_intros <;> decide

/-- A FLIP accepted after a DEFILTER with no STATUS read between: IN, just before RAW, just after OUT, and above BUF. -/
theorem witness_RunningCommandOwnsNothingElse :
    let s := { running .defilter (.dfByte 1 7) .none [] with es := .idle, done := true }.accepted .flip (.flByte 0 0)
    s.Inv ∧ s.busy = true ∧
    (∀ a ∈ [0, 0x11, 0x1F, 0x30, 0x3F, 0x50, 255, 256],
      ¬(s.rawBase.toNat ≤ a ∧ a < s.rawBase.toNat + s.height.toNat * (4 * s.width.toNat)) ∧
      ¬(s.outBase.toNat ≤ a ∧ a < s.outBase.toNat + s.height.toNat * (4 * s.width.toNat))) ∧
    (hostMove (.memWrite 0#32 7#8) s).hostNext (.memWrite 0#32 7#8) [] ∧
    (hostMove (.memRead 256#32) s).hostNext (.memRead 256#32) [] := by
  and_intros <;> decide

/-- The clauses: a window kept, one opened in place of another, a STATUS read with BUSY 0, a reset. -/
theorem witness_WindowChangesOnlyAtAcceptanceStatusReadOrReset :
    let f := running .flip (.flByte 1 7) .none []
    let ended := { f with es := .idle }
    after (step f) (fun t => t.window == f.window) = true ∧
    after (step (hostMove (.regWrite 1#6 1#32) ended)) (fun t => t.window == some ⟨.defilter, (base []).regGeom⟩) = true ∧
    after (step (hostMove (.regRead 2#6) ended)) (fun t => t.window == Option.none) = true ∧
    after (step (withNext [.resetAssert] f)) (fun t => t.window == Option.none) = true := by
  and_intros <;> decide

/-- One state for each ERR_CODE. -/
theorem witness_StatusAndErrorRegisterReads :
    ∀ e ∈ [ErrCode.none, .invalidFilterType, .sizeMismatch, .unsupportedFormat, .configError, .illegalCommand],
      ({ base [] with errCode := e }).errCode = e := by decide

theorem witness_StatusReadReleasesBuf :
    let s := withNext [.host (.regRead 2#6), .host (.memRead 255#32)] { running .flip (.flByte 1 7) .none [] with es := .idle }
    s.busy = false ∧ (255#32 : Word).toNat < s.memSize ∧ s.hostNext (.regRead 2#6) [.host (.memRead 255#32)] := by decide

/-- The line up with a window open and the STATUS read and a BUF read to come, and the line down. -/
theorem witness_InterruptThenStatusReleasesBuf :
    let s := withNext [.host .irqSample, .host (.regRead 2#6), .host (.memRead 0x40#32)]
      { running .flip (.flByte 1 7) .none [] with es := .idle, done := true, doneIE := true }
    s.hostNext .irqSample [.host (.regRead 2#6), .host (.memRead 0x40#32)] ∧ s.Inv ∧ s.irq = true ∧
      (0x40#32 : Word).toNat < s.memSize ∧ s.readOwned 0x40 = true ∧
      (hostMove .irqSample (base [])).hostNext .irqSample [] ∧ (hostMove .irqSample (base [])).irq = false := by
  and_intros <;> decide

theorem witness_ResetInputResetsAndHolds :
    (withNext [.resetAssert] (running .flip (.flByte 1 7) .none [])).inputs = [.resetAssert] ∧
    { base [] with inReset := true }.inReset = true := by decide

/-- StepKeepsInvariant, EngineNeverLeavesBuf, EngineWritesOnlyItsWriteRegions, EngineStepsCountDown: running states of
each phase meet the invariant, have the engine next, and step on. -/
theorem witness_running_states :
    ∀ s ∈ [running .defilter (.dfHdr 1) .none [(9, 4#8)], running .convert (.dfByte 1 7) .up [(0x11, 1#8), (0x27, 2#8)],
        running .flip (.flByte 1 7) .none [(0x2F, 3#8)]],
      s.Inv ∧ s.busy = true ∧ s.engineNext [] ∧ after (step s) (fun _ => true) = true := by
  intro s hs
  simp only [List.mem_cons, List.not_mem_nil, or_false] at hs
  rcases hs with rfl | rfl | rfl <;> and_intros <;> decide

theorem witness_StepRefusesOnlyOwnedAccesses :
    isRefused (step (hostMove (.memRead 0x20#32) (running .defilter (.dfHdr 0) .none []))) (.ownedRead 0x20#32) = true ∧
    isRefused (step (hostMove (.memWrite 0#32 0#8) (running .defilter (.dfHdr 0) .none []))) (.ownedWrite 0#32) = true := by
  decide

theorem witness_BusyKeepsConfiguration :
    let s := running .defilter (.dfHdr 1) .none [(9, 4#8)]
    after (step s) (fun _ => true) = true ∧ s.busy = true ∧ ∀ rest, s.inputs ≠ .resetAssert :: rest :=
  ⟨by decide, by decide, fun _ h => by cases h⟩

/-- The three ways a run ends. -/
theorem witness_RunEndsOnlyThreeWays :
    ∀ s ∈ [running .flip (.flByte 1 7) .none [(0x2F, 3#8)], running .defilter (.dfHdr 1) .none [(9, 5#8)],
        withNext [.resetAssert] (running .defilter (.dfHdr 1) .none [])],
      s.busy = true ∧ after (step s) (fun t => !t.busy) = true := by decide

theorem witness_BusyBeginsOnlyByAcceptedCommand :
    let s := hostMove (.regWrite 1#6 2#32) (base [])
    s.busy = false ∧ after (step s) (fun t => t.busy) = true := by decide

theorem witness_EngineWritesOnly_addresses :
    Command.convert.writesAt (base []).regGeom 0x1F = false ∧ (base []).inBase.toNat ≤ 0x11 ∧
    0x11 < (base []).inBase.toNat + (base []).regGeom.inExpect := by decide

theorem witness_HostWriteCommutesWithEngineStep :
    let s := running .flip (.flByte 1 7) .none [(0x2F, 3#8)]
    s.Inv ∧ s.inReset = false ∧ s.busy = true ∧ s.writeOwned (0x30#32 : Word).toNat = false ∧
      after (runSteps 2 (s.withInputs [.engine, .host (.memWrite 0x30#32 5#8)])) (fun t => t.done) = true := by
  and_intros <;> decide

/-- FlipReversesRows, DefilterReconstructsImage, ConvertReconstructsAndFlips: a ready 1×1 image. -/
theorem witness_whole_commands :
    (tiny tinyIn).busy = false ∧ (tiny tinyIn).engineAlone ∧ (tiny tinyIn).ReadyFor .defilter ∧
    (tiny tinyIn).ReadyFor .flip ∧ (tiny tinyIn).ReadyFor .convert ∧ (tiny tinyIn).RowsLegal (tiny tinyIn).regGeom := by
  and_intros <;> decide

/-- Two rows, the second illegal. -/
theorem witness_FirstIllegalRowEndsTheRun :
    let s := base [(0, 4#8), (9, 5#8)]
    s.busy = false ∧ s.engineAlone ∧ s.ReadyFor .defilter ∧ s.ReadyFor .convert ∧ 1 < s.regGeom.rows ∧
      4 < (s.bufByte (s.regGeom.ftypeAddr 1)).toNat ∧
      ∀ q, q < 1 → (s.bufByte (s.regGeom.ftypeAddr q)).toNat ≤ 4 := by decide

/-- The raw image of `tinyIn`: one row filtered with SUB in its first pixel. -/
theorem witness_DefilterInvertsForwardFilter :
    (tiny tinyIn).StreamOf (tiny tinyIn).regGeom (fun _ => .sub) (fun _ col => BitVec.ofNat 8 (10 * (col + 1))) := by
  unfold State.StreamOf
  decide

/-- Two machines with the same stream, IN, RAW and OUT in different places. -/
theorem witness_DefilterDependsOnStreamOnly :
    let s := tiny tinyIn
    let s' := idleState 1 1 8 5 0x50 0x60 [(8, 1#8), (9, 10#8), (10, 20#8), (11, 30#8), (12, 40#8)]
    s.ReadyFor .defilter ∧ s'.ReadyFor .defilter ∧ s.RowsLegal s.regGeom ∧ s.busy = false ∧ s'.busy = false ∧
    s.engineAlone ∧ s'.engineAlone ∧ s.width = s'.width ∧ s.height = s'.height ∧
    (∀ n, n < s.regGeom.inExpect → s.bufByte (s.inBase.toNat + n) = s'.bufByte (s'.inBase.toNat + n)) ∧
    after (exec .defilter s) (fun t => after (runSteps 5 t) (fun u => u.done)) = true ∧
    after (exec .defilter s') (fun t => after (runSteps 5 t) (fun u => u.done)) = true := by
  and_intros <;> decide

/-- A second FLIP of a first FLIP's OUT. -/
theorem witness_FlipTwiceIsIdentity :
    let m : List Host.Cell := [(0x20, 1#8), (0x21, 2#8), (0x22, 3#8), (0x23, 4#8)]
    let s := tiny m
    let s' := idleState 1 1 0 0 0x40 0x60 [(0x40, 1#8), (0x41, 2#8), (0x42, 3#8), (0x43, 4#8)]
    s.ReadyFor .flip ∧ s'.ReadyFor .flip ∧ s.busy = false ∧ s'.busy = false ∧ s.engineAlone ∧ s'.engineAlone ∧
    s.width = s'.width ∧ s.height = s'.height ∧
    after (exec .flip s) (fun t => after (runSteps 4 t) (fun u =>
      [0, 1, 2, 3].all (fun n => s'.bufByte (0x40 + n) == u.bufByte (0x40 + n)))) = true ∧
    after (exec .flip s') (fun t => after (runSteps 4 t) (fun u => u.done)) = true := by
  and_intros <;> decide

end Sys2Proof.Tests
end

section
/-!
PROOFS of the scope family (00_scope.md): geometry and region layout.
-/
namespace Sys2Proof.Machine

/-- Settles O4: every quantity of R10 and every region of R68 is a `Nat` expression in the geometry registers' values, so
each clause is its definition with `Config.bpp = 4` and `Geom.rows` unfolded. -/
theorem geometryAndRegionLayout : Obligations.GeometryAndRegionLayout := by
  intro g r col
  and_intros <;> rfl

end Sys2Proof.Machine
end

section
/-!
PROOFS of the state family (10_state.md): the invariant. Two rules build it, one for an idle block and one for a running
command; every operation of the model goes through one of them, and the step is assembled from the operations.
-/
namespace Sys2Proof.Machine

variable {s : State}

/-! ### How the invariant is built -/

/-- An idle block meets the invariant when its parameters, BUF, status and draws do: the rest speaks of a running command. -/
theorem inv_of_idle (hes : s.es = .idle) (hp : s.ParamsOk) (hm : s.MemOk) (hd : s.DrawsOk)
    (hde : ¬(s.done = true ∧ s.error = true)) (hdone : s.done = true → s.errCode = .none)
    (herr : s.error = true → s.errCode ≠ .none) (hr : s.ResetOk) : s.Inv := by
  have hb : s.busy ≠ true := by simp [(busy_eq_false_iff s).mpr hes]
  exact ⟨hp, hm, ⟨hde, fun h => absurd h hb, hdone, herr⟩, fun h => absurd h hb, by simp [State.positionOk, hes],
    fun h => absurd h hb, hr, hd⟩

/-- While a command runs, moving the engine inside its range and storing bytes of BUF keeps the invariant. -/
theorem inv_of_running (h : s.Inv) (hb : s.busy = true) (es : EngineState) (f : FilterType) (m : List Host.Cell)
    (hm : Memory.wf s.memSize m) (hpos : { s with es := es, ft := f, buf := m }.positionOk = true) :
    { s with es := es, ft := f, buf := m }.Inv := by
  obtain ⟨hp, -, ⟨hde, hrun, hdone, herr⟩, hg, -, hw, hr, hd⟩ := h
  have hnr : s.inReset ≠ true := fun hr' => by simp [(hr hr').1] at hb
  exact ⟨hp, hm, ⟨hde, fun _ => hrun hb, hdone, herr⟩, fun _ => hg hb, hpos, fun _ => hw hb,
    fun hr' => absurd hr' hnr, hd⟩

/-- A running command that completes, its last byte stored, leaves the invariant (42_commands.md R170). -/
theorem inv_complete (h : s.Inv) (hb : s.busy = true) (m : List Host.Cell) (hm : Memory.wf s.memSize m) :
    { s with buf := m }.complete.Inv := by
  obtain ⟨hp, -, ⟨-, hrun, -, -⟩, -, -, -, hr, hd⟩ := h
  obtain ⟨-, herror, hcode, -, -⟩ := hrun hb
  have hnr : s.inReset ≠ true := fun hr' => by simp [(hr hr').1] at hb
  exact inv_of_idle rfl hp hm hd (by simp [herror]) (fun _ => hcode) (by simp [herror]) (fun hr' => absurd hr' hnr)

/-! ### The register port and BUF's port -/

/-- What the host's own side holds is no part of the invariant. -/
theorem inv_respond (h : s.Inv) (d : Response) : (s.respond d).Inv := h

theorem inv_withInputs_clearResponse (h : s.Inv) (l : List Input) : (s.withInputs l).clearResponse.Inv := h

/-- A register read can only end the window, and only of an idle block. -/
theorem inv_hostRegRead (h : s.Inv) (i : RegIndex) : (hostRegRead i s).Inv := by
  rw [hostRegRead_eq]
  obtain ⟨hp, hm, hs, hg, hpos, hw, hr, hd⟩ := h
  refine ⟨hp, hm, hs, hg, hpos, fun hb => ?_, hr, hd⟩
  have hb' : s.busy = true := hb
  simpa [hb'] using hw hb'

/-- A STATUS write only clears DONE and ERROR (10_state.md R30). -/
theorem inv_ackStatus (h : s.Inv) (v : Word) : (s.ackStatus v).Inv := by
  obtain ⟨hp, hm, ⟨hde, hrun, hdone, herr⟩, hg, hpos, hw, hr, hd⟩ := h
  have done_of : (s.done && !v.getLsbD 1) = true → s.done = true := fun hc => (Bool.and_eq_true_iff.mp hc).1
  have error_of : (s.error && !v.getLsbD 2) = true → s.error = true := fun hc => (Bool.and_eq_true_iff.mp hc).1
  refine ⟨hp, hm, ⟨fun hc => hde ⟨done_of hc.1, error_of hc.2⟩, fun hb => ?_, fun hc => hdone (done_of hc),
    fun hc => herr (error_of hc)⟩, hg, hpos, hw, fun hr' => ?_, hd⟩
  · obtain ⟨hdone0, herror0, herr0⟩ := hrun hb
    exact ⟨by simp [hdone0], by simp [herror0], herr0⟩
  · obtain ⟨hb, hdone0, herror0, hie⟩ := hr hr'
    exact ⟨hb, by simp [hdone0], by simp [herror0], hie⟩

/-- An INT_EN write can raise the interrupt, but only with reset released (10_state.md R34). -/
theorem inv_setIntEn (h : s.Inv) (hnr : s.inReset = false) (v : Word) : (s.setIntEn v).Inv := by
  obtain ⟨hp, hm, hs, hg, hpos, hw, -, hd⟩ := h
  exact ⟨hp, hm, hs, hg, hpos, hw, fun hr' => by simp [hnr] at hr', hd⟩

/-- The configuration registers of an idle block are free (10_state.md R35 to R42). -/
theorem inv_configuration (h : s.Inv) (hb : s.busy = false) (w ht ib il rb ob : Word) (f : Format) (n : Byte) :
    { s with width := w, height := ht, format := f, interlace := n, inBase := ib, inLen := il, rawBase := rb
             outBase := ob }.Inv := by
  obtain ⟨hp, hm, ⟨hde, -, hdone, herr⟩, -, -, -, hr, hd⟩ := h
  exact inv_of_idle ((busy_eq_false_iff s).mp hb) hp hm hd hde hdone herr hr

theorem inv_writeReg (h : s.Inv) (hnr : s.inReset = false) (r : Reg) (v : Word) : (s.writeReg r v).Inv := by
  rcases writeReg_cases r v s with he | he | he | ⟨hb, he⟩
  · rwa [he]
  · rw [he]; exact inv_ackStatus h v
  · rw [he]; exact inv_setIntEn h hnr v
  · rw [he]; exact inv_configuration h hb ..

/-- A host write inside BUF keeps the list of bytes canonical. -/
theorem inv_setBufByte (h : s.Inv) (a : Nat) (ha : a < s.memSize) (v : Byte) : (s.setBufByte a v).Inv := by
  obtain ⟨hp, hm, hs, hg, hpos, hw, hr, hd⟩ := h
  exact ⟨hp, store_wf _ _ _ _ ha hm, hs, hg, hpos, hw, hr, hd⟩

/-! ### Commands -/

/-- At decode a rejected command word leaves an idle block with ERROR and an error's code (42_commands.md R161, R163 to
R165). -/
theorem inv_reject (h : s.Inv) (hnr : s.inReset = false) (code : ErrCode) (hc : code ≠ .none) (o i : Word) :
    (s.clearStatus.raiseError code o i).Inv := by
  obtain ⟨hp, hm, -, -, -, -, -, hd⟩ := h
  exact inv_of_idle rfl hp hm hd (by simp) (by simp) (fun _ => hc) (fun hr' => by simp [hnr] at hr')

/-- A command that fits has at least one row, and at least one byte in each. -/
theorem rows_pos_of_fits {c : Command} {g : Geom} {n : Nat} (h : c.Fits g n) : 0 < g.rows ∧ 0 < g.rowBytes := by
  obtain ⟨hw, hh, -⟩ := h
  have hw' : 0 < g.width.toNat := Nat.pos_of_ne_zero fun h => hw (BitVec.eq_of_toNat_eq h)
  have hh' : 0 < g.height.toNat := Nat.pos_of_ne_zero fun h => hh (BitVec.eq_of_toNat_eq h)
  exact ⟨hh', Nat.mul_pos (by decide) hw'⟩

/-- An accepted command starts inside its geometry (42_commands.md R166). -/
theorem positionOk_accept (c : Command) (h : c.Fits s.regGeom s.memSize) : (s.accept c).positionOk = true := by
  obtain ⟨hrows, hbytes⟩ := rows_pos_of_fits h
  cases c <;> simp [State.positionOk, hrows, hbytes]

/-- Acceptance of a ready command starts the run with everything the invariant says of it (42_commands.md R166). -/
theorem inv_accept (h : s.Inv) (hnr : s.inReset = false) (c : Command) (hready : s.ReadyFor c) :
    (s.clearStatus.accept c).Inv := by
  obtain ⟨hp, hm, -, -, -, -, -, hd⟩ := h
  exact ⟨hp, hm, ⟨by simp, fun _ => ⟨rfl, rfl, rfl, rfl, rfl⟩, fun _ => rfl, by simp⟩, fun _ => ⟨rfl, hready⟩,
    positionOk_accept c hready.2.1, fun _ => rfl, fun hr' => by simp [hnr] at hr', hd⟩

theorem inv_startCommand (h : s.Inv) (hnr : s.inReset = false) (c : Command) : (s.startCommand c).Inv := by
  rcases startCommand_cases c s with ⟨-, he⟩ | ⟨-, code, o, i, hc, he⟩ | ⟨-, h1, h2, h3, he⟩
  · rwa [he]
  · rw [he]; exact inv_reject h hnr code hc o i
  · rw [he]; exact inv_accept h hnr c ((ready_iff s c).mpr ⟨h1, h2, h3⟩)

theorem inv_illegalCommand (h : s.Inv) (hnr : s.inReset = false) (w : Word) : (s.illegalCommand w).Inv := by
  unfold State.illegalCommand
  split
  · exact h
  · exact inv_reject h hnr _ (by decide) _ _

/-! ### Who moves: the host, the engine, the reset input -/

theorem inv_hostAccess {t : State} (h : s.Inv) (hnr : s.inReset = false) (op : HostOp) (ht : hostAccess op s = .next t) :
    t.Inv := by
  rcases hostAccess_cases op s t ht with
    ⟨i, -, rfl⟩ | ⟨i, v, -, hwr⟩ | ⟨a, d, -, -, rfl⟩ | ⟨a, v, -, -, ⟨ha, rfl⟩ | ⟨-, rfl⟩⟩ | ⟨-, rfl⟩
  · exact inv_hostRegRead h i
  · rcases writePort_cases i v s t hwr with ⟨r, -, -, rfl⟩ | rfl | ⟨c, -, -, rfl⟩ | ⟨-, rfl⟩
    · exact inv_writeReg h hnr r v
    · exact h
    · exact inv_startCommand h hnr c
    · exact inv_illegalCommand h hnr v
  · exact inv_respond h _
  · exact inv_setBufByte h _ ha v
  · exact h
  · exact inv_respond h _

/-- InvalidFilterType ends the run of a busy block with an error (60_exceptions.md R202, R203). -/
theorem inv_invalidFilterType (h : s.Inv) (hb : s.busy = true) (r : Nat) (b : Byte) :
    (s.invalidFilterType r b).Inv := by
  obtain ⟨hp, hm, ⟨-, hrun, -, -⟩, -, -, -, hr, hd⟩ := h
  have hdone : s.done = false := (hrun hb).1
  have hnr : s.inReset ≠ true := fun hr' => by simp [(hr hr').1] at hb
  have hm' : (s.invalidFilterType r b).MemOk := redrawWrites_wf s.opl s.geom (s.raiseError .invalidFilterType _ _) hm
  have hd' : s.bufEpoch < s.draws + 1 := Nat.lt_succ_of_lt hd
  rw [invalidFilterType_eq] at hm' ⊢
  exact inv_of_idle rfl hp hm' hd' (by simp [hdone]) (by simp [hdone]) (by simp) (fun hr' => absurd hr' hnr)

/-- The latch at DF_HDR(r) goes to the row's first byte (40_defilter.md R108). -/
theorem inv_latch (h : s.Inv) {r : Nat} (hes : s.es = .dfHdr r) (f : FilterType) :
    { s with ft := f, es := .dfByte r 0 }.Inv := by
  have hb : s.busy = true := (busy_eq_true_iff s).mpr (by simp [hes])
  obtain ⟨-, hm, -, hg, hpos, -, -, -⟩ := id h
  obtain ⟨hgeom, -, hfits, -⟩ := hg hb
  have hbytes : 0 < s.geom.rowBytes := hgeom ▸ (rows_pos_of_fits hfits).2
  refine inv_of_running h hb _ f s.buf hm ?_
  simp only [State.positionOk, hes, Bool.and_eq_true, decide_eq_true_eq] at hpos ⊢
  exact ⟨⟨hpos.1, hbytes⟩, hpos.2⟩

/-- A stored byte and R109's advance keep the counters in range: the next byte, the next row, CONVERT's flip phase, or
completion. -/
theorem inv_advanceDefilter (h : s.Inv) {r col a : Nat} (hes : s.es = .dfByte r col) (ha : a < s.memSize) (v : Byte) :
    ((s.setBufByte a v).advanceDefilter r col).Inv := by
  have hb : s.busy = true := (busy_eq_true_iff s).mpr (by simp [hes])
  obtain ⟨-, hm, -, -, hpos, -, -, -⟩ := id h
  have hm' := store_wf _ _ a v ha hm
  simp only [State.positionOk, hes, Bool.and_eq_true, decide_eq_true_eq] at hpos
  obtain ⟨⟨hrow, hcol⟩, hop⟩ := hpos
  by_cases h1 : col + 1 < s.geom.rowBytes
  · rw [advanceDefilter_nextByte r col (s.setBufByte a v) h1]
    exact inv_of_running h hb _ s.ft _ hm' (by simp [State.positionOk, h1, hrow, hop])
  by_cases h2 : r + 1 < s.geom.rows
  · rw [advanceDefilter_nextRow r col (s.setBufByte a v) h1 h2]
    exact inv_of_running h hb _ s.ft _ hm' (by simp [State.positionOk, h2, hop])
  by_cases h3 : s.opl = .convert
  · rw [advanceDefilter_toFlip r col (s.setBufByte a v) h1 h2 h3]
    exact inv_of_running h hb _ s.ft _ hm' (by simp [State.positionOk, h3]; omega)
  · rw [advanceDefilter_complete r col (s.setBufByte a v) h1 h2 h3]
    exact inv_complete h hb _ hm'

/-- A copied byte and R142's advance keep the counters in range: the next byte, the next row, or completion. -/
theorem inv_advanceFlip (h : s.Inv) {i k a : Nat} (hes : s.es = .flByte i k) (ha : a < s.memSize) (v : Byte) :
    ((s.setBufByte a v).advanceFlip i k).Inv := by
  have hb : s.busy = true := (busy_eq_true_iff s).mpr (by simp [hes])
  obtain ⟨-, hm, -, -, hpos, -, -, -⟩ := id h
  have hm' := store_wf _ _ a v ha hm
  simp only [State.positionOk, hes, Bool.and_eq_true, decide_eq_true_eq] at hpos
  obtain ⟨⟨hrow, hk⟩, hop⟩ := hpos
  by_cases h1 : k + 1 < s.geom.rowBytes
  · rw [advanceFlip_nextByte i k (s.setBufByte a v) h1]
    exact inv_of_running h hb _ s.ft _ hm' (by simp [State.positionOk, h1, hrow, hop])
  by_cases h2 : i + 1 < s.geom.rows
  · rw [advanceFlip_nextRow i k (s.setBufByte a v) h1 h2]
    exact inv_of_running h hb _ s.ft _ hm' (by simp [State.positionOk, h2, hop]; omega)
  · rw [advanceFlip_complete i k (s.setBufByte a v) h1 h2]
    exact inv_complete h hb _ hm'

theorem inv_engineStep {t : State} (h : s.Inv) (ht : engineStep s = .next t) : t.Inv := by
  rcases engineStep_cases s t ht with ⟨-, rfl⟩ | ⟨r, f, hes, -, -, rfl⟩ | ⟨r, hes, -, -, rfl⟩ |
    ⟨r, col, hes, -, ha, rfl⟩ | ⟨i, k, hes, -, ha, rfl⟩
  · exact h
  · exact inv_latch h hes f
  · exact inv_invalidFilterType h ((busy_eq_true_iff s).mpr (by simp [hes])) r _
  · exact inv_advanceDefilter h hes ha _
  · exact inv_advanceFlip h hes ha _

/-- Every reset value is one the invariant allows, whatever draw number the reset takes (70_reset_and_hazards.md R230). -/
theorem inv_afterReset (p : Params) (hp : 1 ≤ p.memSize ∧ p.memSize ≤ 4294967296) (n : Nat) (held : Bool)
    (l : List Input) : (State.afterReset p n held l).Inv :=
  inv_of_idle rfl hp ⟨.nil, by simp [State.afterReset]⟩ (Nat.lt_succ_self n) (by simp [State.afterReset])
    (by simp [State.afterReset]) (by simp [State.afterReset]) (fun _ => ⟨rfl, rfl, rfl, rfl, rfl⟩)

/-- The release changes the reset level alone, to a level of which the invariant says nothing. -/
theorem inv_releaseReset (h : s.Inv) : s.releaseReset.Inv := by
  obtain ⟨hp, hm, hs, hg, hpos, hw, -, hd⟩ := h
  exact ⟨hp, hm, hs, hg, hpos, hw, fun hr' => by simp at hr', hd⟩

/-! ### The obligations -/

/-- Settles O43: the reset state is idle with clear status, and the platform's MEM_SIZE, one more than a word, is in R9's
bounds. -/
theorem resetMeetsInvariant : Obligations.ResetMeetsInvariant := by
  have hlt : Config.memSizeLessOne.toNat < 2 ^ 32 := Config.memSizeLessOne.isLt
  have hp : 1 ≤ Config.params.memSize ∧ Config.params.memSize ≤ 4294967296 := by
    simp only [Config.params]
    omega
  exact inv_afterReset Config.params hp 0 false []

/-- Settles O44, by who moves: the engine, the host, nobody (an access or engine turn used up in reset), or the reset
input. -/
theorem stepKeepsInvariant : Obligations.StepKeepsInvariant := by
  intro s t h ht
  rcases step_cases s t ht with ⟨rest, -, he⟩ | ⟨op, rest, ⟨hnr, -⟩, ha⟩ | ⟨-, rest, rfl | rfl⟩ | ⟨rest, -, rfl⟩ |
    ⟨rest, -, rfl⟩
  · have h' : (s.withInputs rest).Inv := h
    exact inv_engineStep h' he
  · exact inv_hostAccess (inv_withInputs_clearResponse h rest) hnr op ha
  · exact h
  · exact inv_withInputs_clearResponse h rest
  · exact inv_afterReset s.params h.1 s.draws true rest
  · exact inv_releaseReset (s := s.withInputs rest) h

end Sys2Proof.Machine
end

section
/-!
PROOFS of the state family (10_state.md): the register port. What each register reads as and what a write to it does, by
the register's name; the obligations name the word index, which `Reg.index` is.
-/
namespace Sys2Proof.Machine

/-! ### The port, register by register -/

/-- A register is read at its own word index (10_state.md R26). -/
theorem readPort_index (s : State) (r : Reg) : s.readPort r.index = s.readReg r := by
  unfold State.readPort
  rw [regAt_index]

/-- A write to a register other than CMD is that register's write (10_state.md R26). -/
theorem writePort_index (s : State) {r : Reg} (hr : r ≠ .cmd) (v : Word) :
    writePort r.index v s = .next (s.writeReg r v) := by
  unfold writePort
  rw [regAt_index]
  cases r
  case cmd => exact absurd rfl hr
  all_goals rfl

/-- A host's register write as a step, for a register other than CMD. -/
theorem step_regWrite {s : State} {r : Reg} {v : Word} {rest : List Input} (hr : r ≠ .cmd)
    (h : s.hostNext (.regWrite r.index v) rest) :
    step s = .next ((s.withInputs rest).clearResponse.writeReg r v) :=
  (step_hostNext s _ rest h).trans (writePort_index _ hr v)

/-- A CMD write while busy is dropped, whatever the word (10_state.md R28, R47). -/
theorem writeCommand_busy {s : State} (hb : s.busy = true) (w : Word) : writeCommand w s = .next s := by
  unfold writeCommand
  rcases decode_cmd_cases w with ⟨-, hd⟩ | ⟨c, hd⟩ | hd
  · simp only [hd]; rfl
  · simp only [hd, exec_command, State.startCommand, hb, if_true]
  · simp only [hd, State.illegalCommand, hb, if_true]

/-- The configuration registers (10_state.md R35 to R42). -/
def Reg.configuration : List Reg := [.width, .height, .format, .interlace, .inBase, .inLen, .rawBase, .outBase]

/-- A configuration register drops a write while busy (10_state.md R47). -/
theorem writeReg_busy {s : State} (hb : s.busy = true) {r : Reg} (hr : r ∈ Reg.configuration) (v : Word) :
    s.writeReg r v = s := by
  simp only [Reg.configuration, List.mem_cons, List.not_mem_nil, or_false] at hr
  rcases hr with rfl | rfl | rfl | rfl | rfl | rfl | rfl | rfl <;> exact if_pos hb

/-- The registers a write has no effect on, other than CMD (10_state.md R26). -/
def Reg.readOnly : List Reg :=
  [.id, .errCode, .errOffset, .errInfo, .bpp, .inSize, .rawSize, .maskR, .maskG, .maskB, .maskA]

theorem writeReg_readOnly (s : State) {r : Reg} (hr : r ∈ Reg.readOnly) (v : Word) : s.writeReg r v = s := by
  simp only [Reg.readOnly, List.mem_cons, List.not_mem_nil, or_false] at hr
  rcases hr with rfl | rfl | rfl | rfl | rfl | rfl | rfl | rfl | rfl | rfl | rfl <;> rfl

/-- Unmapped offsets 0x58 to 0xFC stand for no register (10_state.md R25). -/
theorem regAt_unmapped : ∀ i : RegIndex, 22 ≤ i.toNat → regAt i = none := by decide

/-- Where the read-only registers stand (10_state.md R26). -/
theorem readOnly_index : ∀ i : RegIndex,
    i.toNat = 0 ∨ i.toNat = 3 ∨ i.toNat = 4 ∨ i.toNat = 5 ∨ 15 ≤ i.toNat → i.toNat < 22 →
      ∃ r ∈ Reg.readOnly, r ≠ .cmd ∧ i = r.index := by
  decide

/-- A write to a read-only register or an unmapped offset is ignored (10_state.md R25, R26). -/
theorem writePort_ignored (s : State) {i : RegIndex} (v : Word)
    (hi : i.toNat = 0 ∨ i.toNat = 3 ∨ i.toNat = 4 ∨ i.toNat = 5 ∨ 15 ≤ i.toNat) : writePort i v s = .next s := by
  by_cases hm : i.toNat < 22
  · obtain ⟨r, hr, hne, rfl⟩ := readOnly_index i hi hm
    rw [writePort_index s hne, writeReg_readOnly s hr]
  · unfold writePort
    rw [regAt_unmapped i (by omega)]

/-! ### Words and their bits -/

/-- One bit of a register word (10_state.md R29, R34). -/
theorem getLsbD_bitAt (n : Nat) (b : Bool) (i : Nat) :
    (bitAt n b).getLsbD i = (decide (i < 32) && (decide (n = i) && b)) := by
  unfold bitAt
  rw [BitVec.getLsbD_ofNat]
  cases b
  · simp
  · simp [Nat.testBit_two_pow]

/-- The STATUS word bit by bit: PHASE is the field at bit 4 (10_state.md R29). -/
theorem getLsbD_statusWord (s : State) (i : Nat) :
    s.statusWord.getLsbD i =
      (decide (i < 32) && (decide (0 = i) && s.busy || decide (1 = i) && s.done || decide (2 = i) && s.error ||
        decide (4 ≤ i) && s.phase.testBit (i - 4) || decide (8 = i) && s.irq)) := by
  unfold State.statusWord
  simp only [BitVec.getLsbD_or, getLsbD_bitAt, BitVec.getLsbD_ofNat, Nat.testBit_mul_two_pow]
  cases decide (i < 32) <;> simp

theorem phase_lt (s : State) : s.phase < 4 := by
  unfold State.phase
  split <;> decide

/-- PHASE takes two bits, so no bit from 2 up is set. -/
theorem testBit_phase (s : State) {i : Nat} (hi : 2 ≤ i) : s.phase.testBit i = false :=
  Nat.testBit_lt_two_pow (Nat.lt_of_lt_of_le (phase_lt s) (Nat.pow_le_pow_right (n := 2) Nat.two_pos hi))

theorem extractLsb'_statusWord_phase (s : State) : (s.statusWord.extractLsb' 4 2).toNat = s.phase := by
  have hw : s.statusWord.extractLsb' 4 2 = BitVec.ofNat 2 s.phase := by
    refine BitVec.eq_of_getLsbD_eq fun i hi => ?_
    rw [BitVec.getLsbD_extractLsb', getLsbD_statusWord, BitVec.getLsbD_ofNat]
    have h32 : 4 + i < 32 := by omega
    have h8 : 8 ≠ 4 + i := by omega
    have h2 : 2 ≠ 4 + i := by omega
    have h1 : 1 ≠ 4 + i := by omega
    have h0 : 0 ≠ 4 + i := by omega
    simp [hi, h32, h8, h2, h1, h0]
  rw [hw, BitVec.toNat_ofNat, Nat.mod_eq_of_lt (phase_lt s)]

/-- Bits [7:6] and [31:9] of STATUS are reserved (10_state.md R29). -/
theorem extractLsb'_statusWord_reserved (s : State) (start len : Nat) (hs : 6 ≤ start)
    (h8 : start + len ≤ 8 ∨ 9 ≤ start) : s.statusWord.extractLsb' start len = 0#len := by
  refine BitVec.eq_of_getLsbD_eq fun i hi => ?_
  rw [BitVec.getLsbD_extractLsb', getLsbD_statusWord, testBit_phase s (by omega)]
  have h0 : 0 ≠ start + i := by omega
  have h1 : 1 ≠ start + i := by omega
  have h2 : 2 ≠ start + i := by omega
  have h8' : 8 ≠ start + i := by omega
  simp [h0, h1, h2, h8']

theorem getLsbD_lowByteMask (i : Nat) : (0xFF#32).getLsbD i = decide (i < 8) := by
  rw [BitVec.getLsbD_ofNat, show 255 = 2 ^ 8 - 1 from rfl, Nat.testBit_two_pow_sub_one]
  simp
  omega

/-- A byte mask at bit `k` picks the byte at bit `k`. -/
theorem byteMask_shift (w : Word) (k : Nat) (hk : k ≤ 24) :
    (w &&& (0xFF#32 <<< k)) >>> k = (w.extractLsb' k 8).setWidth 32 := by
  refine BitVec.eq_of_getLsbD_eq fun i hi => ?_
  simp only [BitVec.getLsbD_ushiftRight, BitVec.getLsbD_and, BitVec.getLsbD_shiftLeft, getLsbD_lowByteMask,
    BitVec.getLsbD_setWidth, BitVec.getLsbD_extractLsb']
  by_cases h8 : i < 8
  · have : k + i < 32 := by omega
    simp [h8, hi, this]
  · simp [h8]

theorem and_lowByteMask (w : Word) : w &&& 0xFF#32 = (w.extractLsb' 0 8).setWidth 32 := by
  have h := byteMask_shift w 0 (by decide)
  rwa [BitVec.ushiftRight_zero, BitVec.shiftLeft_zero] at h

/-- FORMAT's four bytes are its 32 bits (10_state.md R37). -/
theorem Format.word_ofWord (v : Word) : (Format.ofWord v).word = v := by
  simp only [Format.word, Format.ofWord]
  rw [BitVec.extractLsb'_append_extractLsb'_eq_extractLsb' (show 24 = 16 + 8 from rfl),
    BitVec.extractLsb'_append_extractLsb'_eq_extractLsb' (show 16 = 8 + 8 from rfl),
    BitVec.extractLsb'_append_extractLsb'_eq_extractLsb' (show 8 = 0 + 8 from rfl), BitVec.extractLsb'_eq_self]

/-- The bytes of a pixel word, from the least significant up (41_layout.md R146). -/
theorem extractLsb'_pixelWord (b0 b1 b2 b3 : Byte) :
    (pixelWord b0 b1 b2 b3).extractLsb' 0 8 = b0 ∧ (pixelWord b0 b1 b2 b3).extractLsb' 8 8 = b1 ∧
    (pixelWord b0 b1 b2 b3).extractLsb' 16 8 = b2 ∧ (pixelWord b0 b1 b2 b3).extractLsb' 24 8 = b3 := by
  unfold pixelWord
  refine ⟨BitVec.extractLsb'_append_eq_right, ?_, ?_, ?_⟩
  · rw [BitVec.extractLsb'_append_eq_of_le (by decide)]
    exact BitVec.extractLsb'_append_eq_right
  · rw [BitVec.extractLsb'_append_eq_of_le (by decide), BitVec.extractLsb'_append_eq_of_le (by decide)]
    exact BitVec.extractLsb'_append_eq_right
  · rw [BitVec.extractLsb'_append_eq_of_le (by decide), BitVec.extractLsb'_append_eq_of_le (by decide)]
    exact BitVec.extractLsb'_append_eq_left

theorem toNat_saturate (n : Nat) : (saturate n).toNat = min n 0xFFFFFFFF := by
  unfold saturate
  rw [BitVec.toNat_ofNat]
  exact Nat.mod_eq_of_lt (by omega)

/-- A STATUS write as one update: a 1 in bit 1 clears DONE, a 1 in bit 2 clears ERROR (10_state.md R30). -/
theorem ackStatus_eq (s : State) (v : Word) :
    s.ackStatus v =
      { s with
        done := (if v.getLsbD 1 = true then false else s.done)
        error := (if v.getLsbD 2 = true then false else s.error) } := by
  unfold State.ackStatus
  cases v.getLsbD 1 <;> cases v.getLsbD 2 <;> simp

/-- STATUS's BUSY is read off its PHASE (10_state.md R29). -/
theorem busy_eq_phase_ne_zero (s : State) : s.busy = decide (s.phase ≠ 0) := by
  unfold State.busy State.phase
  cases s.es <;> rfl

theorem busy_eq_decide (s : State) : s.busy = decide (s.es ≠ .idle) := by
  unfold State.busy
  cases s.es <;> simp

/-! ### The obligations -/

/-- Settles O30: a CMD write and a configuration write are dropped by the register's own rule, the two others are the
register's write, and a read returns the port's value. -/
theorem busyDropsConfigurationWrites : Obligations.BusyDropsConfigurationWrites := by
  intro s v rest hb
  have hb' : (s.withInputs rest).clearResponse.busy = true := hb
  refine ⟨fun i hi h => ?_, step_regWrite (r := .status) (by decide), step_regWrite (r := .intEn) (by decide),
    fun i h => ⟨_, step_hostNext s _ rest h, ?_⟩⟩
  · have hreg : i = Reg.cmd.index ∨ ∃ r ∈ Reg.configuration, r ≠ .cmd ∧ i = r.index := by
      clear h
      revert i
      decide
    rcases hreg with rfl | ⟨r, hr, hne, rfl⟩
    · exact (step_hostNext s _ rest h).trans (writeCommand_busy hb' v)
    · rw [step_regWrite hne h, writeReg_busy hb' hr]
  · rw [hostRegRead_eq]
    rfl

/-- Settles O31: each configuration register's idle write is one field's update, read back through the register. -/
theorem idleConfigurationWritesReadBack : Obligations.IdleConfigurationWritesReadBack := by
  intro s v rest hb
  have hb' : ¬(s.withInputs rest).clearResponse.busy = true := by
    rw [busy_congr s (s.withInputs rest).clearResponse rfl, hb]
    decide
  refine ⟨fun h => (step_regWrite (r := .width) (by decide) h).trans (congrArg _ (if_neg hb')),
    fun h => (step_regWrite (r := .height) (by decide) h).trans (congrArg _ (if_neg hb')),
    fun h => (step_regWrite (r := .inBase) (by decide) h).trans (congrArg _ (if_neg hb')),
    fun h => (step_regWrite (r := .inLen) (by decide) h).trans (congrArg _ (if_neg hb')),
    fun h => (step_regWrite (r := .rawBase) (by decide) h).trans (congrArg _ (if_neg hb')),
    fun h => (step_regWrite (r := .outBase) (by decide) h).trans (congrArg _ (if_neg hb')),
    fun h => ⟨_, (step_regWrite (r := .format) (by decide) h).trans (congrArg _ (if_neg hb')), rfl,
      (readPort_index _ .format).trans (Format.word_ofWord v), rfl, rfl, rfl, rfl⟩,
    fun h => ⟨_, (step_regWrite (r := .interlace) (by decide) h).trans (congrArg _ (if_neg hb')), rfl,
      (readPort_index _ .interlace).trans (and_lowByteMask v).symm⟩,
    readPort_index s .width, readPort_index s .height, readPort_index s .inBase, readPort_index s .inLen,
    readPort_index s .rawBase, readPort_index s .outBase⟩

/-- Settles O32: the constants are the registers' own reads, ignored writes are `writePort_ignored`, and each mask picks the
byte of the pixel word that stands under it. -/
theorem fixedRegistersAndChannelMasks : Obligations.FixedRegistersAndChannelMasks := by
  refine ⟨fun s => ⟨readPort_index s .id, readPort_index s .cmd, readPort_index s .bpp, readPort_index s .maskR,
    readPort_index s .maskG, readPort_index s .maskB, readPort_index s .maskA, fun i hi => ?_, fun i v rest hi h => ?_⟩,
    fun b0 b1 b2 b3 => ?_⟩
  · unfold State.readPort
    rw [regAt_unmapped i hi]
  · exact (step_hostNext s _ rest h).trans (writePort_ignored _ v hi)
  · obtain ⟨h0, h1, h2, h3⟩ := extractLsb'_pixelWord b0 b1 b2 b3
    exact ⟨(and_lowByteMask _).trans (congrArg _ h0), (byteMask_shift _ 8 (by decide)).trans (congrArg _ h1),
      (byteMask_shift _ 16 (by decide)).trans (congrArg _ h2), (byteMask_shift _ 24 (by decide)).trans (congrArg _ h3)⟩

/-- Settles O27: each bit or field of STATUS is read off `getLsbD_statusWord`, and ERR_CODE, ERR_OFFSET and ERR_INFO are the
registers' own reads. -/
theorem statusAndErrorRegisterReads : Obligations.StatusAndErrorRegisterReads := by
  intro s
  have hst : s.readPort 2#6 = s.statusWord := readPort_index s .status
  have hec : s.readPort 3#6 = BitVec.ofNat 32 s.errCode.number := readPort_index s .errCode
  rw [hst, hec]
  refine ⟨?_, ?_, ?_, ?_, extractLsb'_statusWord_phase s,
    extractLsb'_statusWord_reserved s 6 2 (by decide) (by decide), ?_,
    extractLsb'_statusWord_reserved s 9 23 (by decide) (by decide), ?_, ?_, ?_, ?_, ?_, ?_,
    readPort_index s .errOffset, readPort_index s .errInfo⟩
  · rw [getLsbD_statusWord, busy_eq_decide]
    simp
  · rw [getLsbD_statusWord]
    simp
  · rw [getLsbD_statusWord]
    simp
  · rw [getLsbD_statusWord]
    simp
  · rw [getLsbD_statusWord, testBit_phase s (by decide)]
    simp
  all_goals
    intro he
    rw [he]
    rfl

/-- Settles O28: the STATUS register's write, as one update. -/
theorem statusWriteClearsOnly : Obligations.StatusWriteClearsOnly := by
  intro s v rest h
  rw [step_regWrite (r := .status) (by decide) h]
  exact congrArg _ (ackStatus_eq _ v)

/-- Settles O33: both views saturate a size that is R10's expression in WIDTH and HEIGHT by definition. -/
theorem sizeViewsSaturate : Obligations.SizeViewsSaturate := fun s =>
  ⟨(congrArg _ (readPort_index s .inSize)).trans (toNat_saturate _),
    (congrArg _ (readPort_index s .rawSize)).trans (toNat_saturate _)⟩

/-- Settles O34: every register but STATUS reads a field the two states share; STATUS reads the engine through PHASE
alone. -/
theorem registerReadsHideTheEngine : Obligations.RegisterReadsHideTheEngine := by
  intro s t i h hp
  have hbusy : t.busy = s.busy := by rw [busy_eq_phase_ne_zero, busy_eq_phase_ne_zero, hp]
  have hreg : ∀ r, t.readReg r = s.readReg r := by
    intro r
    cases r
    case status =>
      simp only [State.readReg, State.statusWord, hbusy, hp]
      rw [h]
      rfl
    all_goals
      rw [h]
      rfl
  unfold State.readPort
  cases regAt i with
  | none => rfl
  | some r => exact hreg r

/-- Settles O41: each register's read of the reset state computes to its reset value. -/
theorem resetStateReadsResetValues : Obligations.ResetStateReadsResetValues := by
  have read := readPort_index State.reset
  exact ⟨rfl, rfl, rfl, rfl, read .id, read .status, read .errCode, read .errOffset, read .errInfo, read .intEn,
    read .width, read .height, read .format, read .interlace, read .inBase, read .inLen, read .rawBase, read .outBase,
    read .bpp, read .inSize, read .rawSize, read .maskR, read .maskG, read .maskB, read .maskA⟩

end Sys2Proof.Machine
end

section
/-!
PROOFS of the state family (10_state.md): what a step leaves of the configuration. The frame of an engine step, and the
frame of a host access while a command runs, each as one record update.
-/
namespace Sys2Proof.Machine

variable {s t : State}

/-- FRAME of an engine step: registers, latches OPL and GEOM, the parameters, the window and the ports stay. -/
theorem engineStep_frame (h : engineStep s = .next t) :
    t = { s with
          es := t.es, ft := t.ft, done := t.done, error := t.error, errCode := t.errCode, errOffset := t.errOffset
          errInfo := t.errInfo, buf := t.buf, draws := t.draws } := by
  rcases engineStep_cases s t h with ⟨-, rfl⟩ | ⟨r, f, -, -, -, rfl⟩ | ⟨r, -, -, -, rfl⟩ | ⟨r, col, -, -, -, rfl⟩ |
    ⟨i, k, -, -, -, rfl⟩
  · rfl
  · rfl
  · rw [invalidFilterType_eq]
  · rw [advanceDefilter_eq]
    rfl
  · rw [advanceFlip_eq]
    rfl

/-- FRAME of a host access while a command runs: STATUS's two flags, INT_EN, BUF and the window can change, nothing that
the command runs on (10_state.md R47). -/
theorem hostAccess_busy_frame {op : HostOp} (hb : s.busy = true) (h : hostAccess op s = .next t) :
    t = { s with
          done := t.done, error := t.error, doneIE := t.doneIE, errIE := t.errIE, buf := t.buf, window := t.window
          response := t.response } := by
  rcases hostAccess_cases op s t h with
    ⟨i, -, rfl⟩ | ⟨i, v, -, hw⟩ | ⟨a, d, -, -, rfl⟩ | ⟨a, v, -, -, ⟨-, rfl⟩ | ⟨-, rfl⟩⟩ | ⟨-, rfl⟩
  · rw [hostRegRead_eq]
  · rcases writePort_cases i v s t hw with ⟨r, -, -, rfl⟩ | rfl | ⟨c, -, -, rfl⟩ | ⟨-, rfl⟩
    · rcases writeReg_cases r v s with he | he | he | ⟨hidle, -⟩
      · rw [he]
      · rw [he]; rfl
      · rw [he]; rfl
      · simp [hidle] at hb
    · rfl
    · rw [State.startCommand, if_pos hb]
    · rw [State.illegalCommand, if_pos hb]
  · rfl
  · rfl
  · rfl
  · rfl

/-- No host access changes MEM_SIZE or REG_BASE (00_scope.md R9). -/
theorem hostAccess_params {op : HostOp} (h : hostAccess op s = .next t) : t.params = s.params := by
  rcases hostAccess_cases op s t h with
    ⟨i, -, rfl⟩ | ⟨i, v, -, hw⟩ | ⟨a, d, -, -, rfl⟩ | ⟨a, v, -, -, ⟨-, rfl⟩ | ⟨-, rfl⟩⟩ | ⟨-, rfl⟩
  · rw [hostRegRead_eq]
  · rcases writePort_cases i v s t hw with ⟨r, -, -, rfl⟩ | rfl | ⟨c, -, -, rfl⟩ | ⟨-, rfl⟩
    · rcases writeReg_cases r v s with he | he | he | ⟨-, he⟩ <;> rw [he] <;> rfl
    · rfl
    · rcases startCommand_cases c s with ⟨-, he⟩ | ⟨-, code, o, i, -, he⟩ | ⟨-, -, -, -, he⟩ <;> rw [he] <;> rfl
    · unfold State.illegalCommand
      split <;> rfl
  · rfl
  · rfl
  · rfl
  · rfl

/-- No step changes the parameters, the reset input included (00_scope.md R9). -/
theorem step_params (h : step s = .next t) : t.params = s.params := by
  rcases step_cases s t h with ⟨rest, -, he⟩ | ⟨op, rest, -, ha⟩ | ⟨-, rest, rfl | rfl⟩ | ⟨rest, -, rfl⟩ | ⟨rest, -, rfl⟩
  · rw [engineStep_frame he]
    rfl
  · exact hostAccess_params (s := (s.withInputs rest).clearResponse) ha
  · rfl
  · rfl
  · rfl
  · rfl

/-- FRAME of a step while a command runs, short of reset: all the command runs on stays (10_state.md R47). -/
theorem step_busy_frame (h : step s = .next t) (hb : s.busy = true) (hr : ∀ rest, s.inputs ≠ .resetAssert :: rest) :
    t = { s with
          es := t.es, ft := t.ft, done := t.done, error := t.error, errCode := t.errCode, errOffset := t.errOffset
          errInfo := t.errInfo, doneIE := t.doneIE, errIE := t.errIE, buf := t.buf, draws := t.draws
          window := t.window, inReset := t.inReset, inputs := t.inputs, response := t.response } := by
  rcases step_cases s t h with ⟨rest, -, he⟩ | ⟨op, rest, -, ha⟩ | ⟨-, rest, rfl | rfl⟩ | ⟨rest, hi, -⟩ | ⟨rest, -, rfl⟩
  · rw [engineStep_frame he]
    rfl
  · rw [hostAccess_busy_frame (s := (s.withInputs rest).clearResponse) hb ha]
    rfl
  · rfl
  · rfl
  · exact absurd hi (hr rest)
  · rfl

/-- Settles O47: the frame of a step while busy names none of the configuration. -/
theorem busyKeepsConfiguration : Obligations.BusyKeepsConfiguration := by
  intro s t h
  refine ⟨step_params h, fun hb hr => ?_⟩
  rw [step_busy_frame h hb hr]
  exact ⟨rfl, rfl, rfl, rfl, rfl, rfl, rfl, rfl, rfl, rfl⟩

end Sys2Proof.Machine
end

section
/-!
PROOFS of the memory family (20_memory.md): where the engine's addresses lie. Each address an engine step names lies in a
region of the running command, and those regions lie in BUF; so the engine never leaves BUF, and never writes outside the
write regions.
-/
namespace Sys2Proof.Machine

variable {s t : State}

/-! ### Addresses in regions (20_memory.md R68) -/

/-- Byte `c` of row `r` lies inside `n` rows of `k` bytes. -/
theorem row_offset_lt {r c n k : Nat} (hr : r < n) (hc : c < k) : r * k + c < n * k :=
  calc r * k + c < r * k + k := Nat.add_lt_add_left hc _
    _ = (r + 1) * k := (Nat.succ_mul r k).symm
    _ ≤ n * k := Nat.mul_le_mul_right k hr

/-- What a command writes it uses. -/
theorem usesAt_of_writesAt {c : Command} {g : Geom} {a : Nat} (h : c.writesAt g a = true) : c.usesAt g a = true := by
  simp [Command.usesAt, h]

theorem writesAt_eq_false_of_not_usesAt {c : Command} {g : Geom} {a : Nat} (h : c.usesAt g a = false) :
    c.writesAt g a = false :=
  (Bool.or_eq_false_iff.mp h).2

/-- Every filter-type byte a command with rows to filter reads lies in IN. -/
theorem usesAt_ftypeAddr {c : Command} {g : Geom} {r : Nat} (hc : c ≠ .flip) (hr : r < g.rows) :
    c.usesAt g (g.ftypeAddr r) = true := by
  have hoff : r * g.lineBytes + 0 < g.inExpect := row_offset_lt hr (by simp [Geom.lineBytes])
  refine (usesAt_iff _ _ _).mpr (.inl ⟨hc, ?_, ?_⟩) <;> unfold Geom.ftypeAddr <;> omega

/-- Every filtered data byte lies in IN. -/
theorem usesAt_dataAddr {c : Command} {g : Geom} {r col : Nat} (hc : c ≠ .flip) (hr : r < g.rows)
    (hcol : col < g.rowBytes) : c.usesAt g (g.dataAddr r col) = true := by
  have hoff : r * g.lineBytes + (1 + col) < g.inExpect := row_offset_lt hr (Nat.add_lt_add_left hcol 1)
  refine (usesAt_iff _ _ _).mpr (.inl ⟨hc, ?_, ?_⟩) <;> unfold Geom.dataAddr <;> omega

/-- Every reconstructed byte lies in RAW. -/
theorem rawAddr_bounds {g : Geom} {r col : Nat} (hr : r < g.rows) (hcol : col < g.rowBytes) :
    g.rawBase.toNat ≤ g.rawAddr r col ∧ g.rawAddr r col < g.rawBase.toNat + g.rawBytes := by
  have hoff : r * g.rowBytes + col < g.rawBytes := row_offset_lt hr hcol
  unfold Geom.rawAddr
  omega

theorem usesAt_rawAddr (c : Command) {g : Geom} {r col : Nat} (hr : r < g.rows) (hcol : col < g.rowBytes) :
    c.usesAt g (g.rawAddr r col) = true :=
  (usesAt_iff _ _ _).mpr (.inr (.inl (rawAddr_bounds hr hcol)))

theorem writesAt_rawAddr {c : Command} {g : Geom} {r col : Nat} (hc : c ≠ .flip) (hr : r < g.rows)
    (hcol : col < g.rowBytes) : c.writesAt g (g.rawAddr r col) = true :=
  (writesAt_iff _ _ _).mpr (.inl ⟨hc, rawAddr_bounds hr hcol⟩)

/-- Every byte the flip writes lies in OUT. -/
theorem writesAt_flipAddr {c : Command} {g : Geom} {i k : Nat} (hc : c ≠ .defilter) (hi : i < g.rows)
    (hk : k < g.rowBytes) : c.writesAt g (g.flipAddr i k) = true := by
  have hoff : (g.rows - 1 - i) * g.rowBytes + k < g.rawBytes := row_offset_lt (by omega) hk
  refine (writesAt_iff _ _ _).mpr (.inr ⟨hc, ?_, ?_⟩) <;> unfold Geom.flipAddr Geom.outAddr <;> omega

/-- The regions of a command that fits lie in BUF (42_commands.md R164). -/
theorem lt_memSize_of_usesAt {c : Command} {g : Geom} {n a : Nat} (hf : c.Fits g n) (ha : c.usesAt g a = true) :
    a < n := by
  obtain ⟨-, -, hin, hraw, hout, -⟩ := hf
  simp only [Geom.inRegion, Geom.rawRegion, Geom.outRegion] at hin hraw hout
  rcases (usesAt_iff _ _ _).mp ha with ⟨hc, -, hlt⟩ | ⟨-, hlt⟩ | ⟨hc, -, hlt⟩
  · exact Nat.lt_of_lt_of_le hlt (hin hc)
  · exact Nat.lt_of_lt_of_le hlt hraw
  · exact Nat.lt_of_lt_of_le hlt (hout hc)

/-- The write regions of a command that fits share no byte with IN, where it reads IN (42_commands.md R164). -/
theorem inRegion_not_written {c : Command} {g : Geom} {n a : Nat} (hf : c.Fits g n) (hc : c ≠ .flip)
    (h1 : g.inBase.toNat ≤ a) (h2 : a < g.inBase.toNat + g.inExpect) : c.writesAt g a = false := by
  obtain ⟨-, -, -, -, -, hraw, -, hout⟩ := hf
  simp only [Region.Apart, Geom.inRegion, Geom.rawRegion, Geom.outRegion] at hraw hout
  have hraw' := hraw hc
  rw [← Bool.not_eq_true, writesAt_iff]
  rintro (⟨-, h3, h4⟩ | ⟨hd, h3, h4⟩)
  · omega
  · have hconv : c = .convert := by cases c <;> simp_all
    have hout' := hout hconv
    omega

/-! ### Where the engine stands -/

theorem position_dfHdr (h : s.Inv) {r : Nat} (hes : s.es = .dfHdr r) : r < s.geom.rows ∧ s.opl ≠ .flip := by
  obtain ⟨-, -, -, -, hpos, -⟩ := h
  simpa [State.positionOk, hes] using hpos

theorem position_dfByte (h : s.Inv) {r col : Nat} (hes : s.es = .dfByte r col) :
    r < s.geom.rows ∧ col < s.geom.rowBytes ∧ s.opl ≠ .flip := by
  obtain ⟨-, -, -, -, hpos, -⟩ := h
  simpa [State.positionOk, hes, and_assoc] using hpos

theorem position_flByte (h : s.Inv) {i k : Nat} (hes : s.es = .flByte i k) :
    i < s.geom.rows ∧ k < s.geom.rowBytes ∧ s.opl ≠ .defilter := by
  obtain ⟨-, -, -, -, hpos, -⟩ := h
  simpa [State.positionOk, hes, and_assoc] using hpos

/-- While a command runs it fits its latched geometry. -/
theorem fits_of_busy (h : s.Inv) (hb : s.busy = true) : s.opl.Fits s.geom s.memSize := by
  obtain ⟨-, -, -, hg, -⟩ := h
  obtain ⟨hgeom, -, hfits, -⟩ := hg hb
  exact hgeom ▸ hfits

/-- The running command's regions lie in BUF. -/
theorem lt_memSize_of_running (h : s.Inv) (hes : s.es ≠ .idle) {a : Nat} (ha : s.opl.usesAt s.geom a = true) :
    a < s.memSize :=
  lt_memSize_of_usesAt (fits_of_busy h ((busy_eq_true_iff s).mpr hes)) ha

/-! ### The engine's steps, forwards -/

theorem engineStep_idle (hes : s.es = .idle) : engineStep s = .next s := by
  simp only [engineStep, hes]

/-- A legal row opcode is latched (40_defilter.md R108). -/
theorem engineStep_latch {r : Nat} (hes : s.es = .dfHdr r) (ha : s.geom.ftypeAddr r < s.memSize) {f : FilterType}
    (hf : s.bufByte (s.geom.ftypeAddr r) = f.code) : engineStep s = .next { s with ft := f, es := .dfByte r 0 } := by
  simp only [engineStep, hes, fetchRow, if_neg (Nat.not_le.mpr ha), hf, decodeRow_code, exec_filter_dfHdr f s r hes]

/-- An illegal row opcode ends the command (40_defilter.md R108). -/
theorem engineStep_invalid {r : Nat} (hes : s.es = .dfHdr r) (ha : s.geom.ftypeAddr r < s.memSize)
    (h4 : 4 < (s.bufByte (s.geom.ftypeAddr r)).toNat) :
    engineStep s = .next (s.invalidFilterType r (s.bufByte (s.geom.ftypeAddr r))) := by
  simp only [engineStep, hes, fetchRow, if_neg (Nat.not_le.mpr ha)]
  rcases decode_ft_cases (s.bufByte (s.geom.ftypeAddr r)) with ⟨f, hf, -⟩ | ⟨-, hd⟩
  · rw [hf] at h4
    cases f <;> exact absurd h4 (by decide)
  · simp only [hd]

/-- A data byte inside BUF is reconstructed (40_defilter.md R102, R109). -/
theorem engineStep_reconstruct {r col : Nat} (hes : s.es = .dfByte r col) (h1 : s.geom.dataAddr r col < s.memSize)
    (h2 : s.geom.rawAddr r col < s.memSize) :
    engineStep s =
      .next ((s.setBufByte (s.geom.rawAddr r col) (s.outByte s.ft.pred r col)).advanceDefilter r col) := by
  simp only [engineStep, hes, exec_filter_dfByte s.ft s r col hes, reconstructByte_next s.ft.pred r col s h1 h2]

/-- A byte inside BUF is copied to a byte inside BUF (41_layout.md R142). -/
theorem engineStep_copy {i k : Nat} (hes : s.es = .flByte i k) (h1 : s.geom.rawAddr i k < s.memSize)
    (h2 : s.geom.flipAddr i k < s.memSize) :
    engineStep s = .next ((s.setBufByte (s.geom.flipAddr i k) (s.bufByte (s.geom.rawAddr i k))).advanceFlip i k) := by
  simp only [engineStep, hes, flipByte, if_neg (Nat.not_le.mpr h1), if_neg (Nat.not_le.mpr h2)]

/-- From a state of the invariant an engine step always answers a next state: each address it names is in a region of the
running command (20_memory.md R63). -/
theorem engineStep_total (h : s.Inv) : ∃ t, engineStep s = .next t := by
  cases hes : s.es with
  | idle => exact ⟨_, engineStep_idle hes⟩
  | dfHdr r =>
    obtain ⟨hr, hop⟩ := position_dfHdr h hes
    have ha := lt_memSize_of_running h (by simp [hes]) (usesAt_ftypeAddr hop hr)
    rcases decode_ft_cases (s.bufByte (s.geom.ftypeAddr r)) with ⟨f, hf, -⟩ | ⟨h4, -⟩
    · exact ⟨_, engineStep_latch hes ha hf⟩
    · exact ⟨_, engineStep_invalid hes ha h4⟩
  | dfByte r col =>
    obtain ⟨hr, hcol, hop⟩ := position_dfByte h hes
    have hrun : s.es ≠ .idle := by simp [hes]
    exact ⟨_, engineStep_reconstruct hes (lt_memSize_of_running h hrun (usesAt_dataAddr hop hr hcol))
      (lt_memSize_of_running h hrun (usesAt_rawAddr s.opl hr hcol))⟩
  | flByte i k =>
    obtain ⟨hi, hk, hop⟩ := position_flByte h hes
    have hrun : s.es ≠ .idle := by simp [hes]
    exact ⟨_, engineStep_copy hes (lt_memSize_of_running h hrun (usesAt_rawAddr s.opl hi hk))
      (lt_memSize_of_running h hrun (usesAt_of_writesAt (writesAt_flipAddr hop hi hk)))⟩

/-! ### Only the engine could fault -/

/-- A register write always answers a next state. -/
theorem writePort_total (i : RegIndex) (v : Word) (s : State) : ∃ t, writePort i v s = .next t := by
  unfold writePort
  split
  · unfold writeCommand
    rcases decode_cmd_cases v with ⟨-, hd⟩ | ⟨c, hd⟩ | hd
    · exact ⟨s, by simp only [hd]; rfl⟩
    · exact ⟨s.startCommand c, by simp only [hd, exec_command]⟩
    · exact ⟨s.illegalCommand v, by simp only [hd]⟩
  · exact ⟨_, rfl⟩
  · exact ⟨_, rfl⟩

/-- A host access may be refused, but never faults. -/
theorem hostAccess_ne_fault (op : HostOp) (s : State) (f : Fault) : hostAccess op s ≠ .fault f := by
  cases op with
  | regRead i => simp [hostAccess]
  | regWrite i v =>
    obtain ⟨t, ht⟩ := writePort_total i v s
    simp [hostAccess, ht]
  | memRead a =>
    simp only [hostAccess, hostMemRead]
    split_ifs <;> simp
  | memWrite a v =>
    simp only [hostAccess, hostMemWrite]
    split_ifs <;> simp
  | irqSample => simp [hostAccess]

/-- A step that faults is an engine step that faults. -/
theorem engineStep_fault_of_step {f : Fault} (h : step s = .fault f) :
    ∃ rest, engineStep (s.withInputs rest) = .fault f := by
  by_cases hr : s.inReset = true
  · unfold step runInput at h
    split at h <;> simp [engineTurn, hostTurn, hr] at h
  rw [Bool.not_eq_true] at hr
  cases hi : s.inputs with
  | nil => exact ⟨[], (step_engineNext s [] ⟨hr, .inr ⟨hi, rfl⟩⟩).symm.trans h⟩
  | cons x rest =>
    cases x with
    | host op => exact absurd ((step_hostNext s op rest ⟨hr, hi⟩).symm.trans h) (hostAccess_ne_fault op _ f)
    | engine => exact ⟨rest, (step_engineNext s rest ⟨hr, .inl hi⟩).symm.trans h⟩
    | resetAssert => simp [step, runInput, hi] at h
    | resetRelease => simp [step, runInput, hi] at h

/-! ### What an engine step writes -/

/-- FRAME of an engine step in BUF: every byte outside the command's write regions stays (20_memory.md R73, R77). -/
theorem bufByte_engineStep (h : s.Inv) (ht : engineStep s = .next t) {a : Nat}
    (ha : s.opl.writesAt s.geom a = false) : t.bufByte a = s.bufByte a := by
  have ne_of_written : ∀ {b}, s.opl.writesAt s.geom b = true → a ≠ b := fun hb hab => by simp [← hab, ha] at hb
  rcases engineStep_cases s t ht with ⟨-, rfl⟩ | ⟨r, f, -, -, -, rfl⟩ | ⟨r, -, -, -, rfl⟩ | ⟨r, col, hes, -, -, rfl⟩ |
    ⟨i, k, hes, -, -, rfl⟩
  · rfl
  · rfl
  · rw [bufByte_invalidFilterType, if_neg (by simp [ha])]
  · obtain ⟨hr, hcol, hop⟩ := position_dfByte h hes
    rw [bufByte_advanceDefilter, bufByte_setBufByte_ne _ _ _ _ (ne_of_written (writesAt_rawAddr hop hr hcol))]
  · obtain ⟨hi, hk, hop⟩ := position_flByte h hes
    rw [bufByte_advanceFlip, bufByte_setBufByte_ne _ _ _ _ (ne_of_written (writesAt_flipAddr hop hi hk))]

/-! ### The obligations -/

/-- Settles O45: a step that faults is an engine step that faults, and from the invariant an engine step always answers. -/
theorem engineNeverLeavesBuf : Obligations.EngineNeverLeavesBuf := by
  intro s f h hf
  obtain ⟨rest, he⟩ := engineStep_fault_of_step hf
  obtain ⟨t, ht⟩ := engineStep_total (s := s.withInputs rest) h
  simp [ht] at he

/-- Settles O50: an engine step writes in the write regions alone, and a command that fits keeps those apart from IN. -/
theorem engineWritesOnlyItsWriteRegions : Obligations.EngineWritesOnlyItsWriteRegions := by
  intro s t rest h hn ht a
  have frame : s.opl.writesAt s.geom a = false → t.bufByte a = s.bufByte a :=
    bufByte_engineStep (s := s.withInputs rest) h ((step_engineNext s rest hn).symm.trans ht)
  exact ⟨frame, fun hb hop h1 h2 => frame (inRegion_not_written (fits_of_busy h hb) hop h1 h2)⟩

end Sys2Proof.Machine
end

section
/-!
PROOFS of the memory family (20_memory.md): the host's accesses as steps. A BUF access outside the window and a register
read, each as one update of the state; the statements about the ports are read off these.
-/
namespace Sys2Proof.Machine

variable {s t : State}

/-! ### The BUF port (20_memory.md R62) -/

/-- What a HostMemWrite does to the block: nothing at or above MEM_SIZE. -/
def State.hostStore (a : Nat) (v : Byte) (s : State) : State := if a < s.memSize then s.setBufByte a v else s

/-- What a HostMemRead returns: 0 at or above MEM_SIZE. -/
def State.hostByte (s : State) (a : Nat) : Byte := if a < s.memSize then s.bufByte a else 0#8

theorem hostStore_of_lt {a : Nat} (ha : a < s.memSize) (v : Byte) : s.hostStore a v = s.setBufByte a v := if_pos ha

theorem hostStore_of_le {a : Nat} (ha : s.memSize ≤ a) (v : Byte) : s.hostStore a v = s := if_neg (Nat.not_lt.mpr ha)

/-- FRAME of a host write: BUF's list alone. -/
theorem hostStore_eq (a : Nat) (v : Byte) (s : State) : s.hostStore a v = { s with buf := (s.hostStore a v).buf } := by
  unfold State.hostStore
  split <;> rfl

theorem bufByte_hostStore_self {a : Nat} (ha : a < s.memSize) (v : Byte) : (s.hostStore a v).bufByte a = v := by
  rw [hostStore_of_lt ha, bufByte_setBufByte_self]

theorem bufByte_hostStore_ne {a b : Nat} (h : b ≠ a ∨ s.memSize ≤ a) (v : Byte) :
    (s.hostStore a v).bufByte b = s.bufByte b := by
  by_cases ha : a < s.memSize
  · rw [hostStore_of_lt ha, bufByte_setBufByte_ne _ _ _ _ (h.resolve_right (Nat.not_le.mpr ha))]
  · rw [hostStore_of_le (Nat.not_lt.mp ha)]

/-- A HostMemWrite that is not refused (70_reset_and_hazards.md R232). -/
theorem hostMemWrite_not_owned {a : Word} (ho : s.writeOwned a.toNat = false) (v : Byte) :
    hostMemWrite a v s = .next (s.hostStore a.toNat v) := by
  simp only [hostMemWrite, ho, Bool.false_eq_true, if_false, State.hostStore]
  split <;> rfl

/-- A HostMemRead that is not refused (70_reset_and_hazards.md R232). -/
theorem hostMemRead_not_owned {a : Word} (ho : s.readOwned a.toNat = false) :
    hostMemRead a s = .next (s.respond (.mem (s.hostByte a.toNat))) := by
  simp only [hostMemRead, ho, Bool.false_eq_true, if_false, State.hostByte]
  split <;> rfl

/-- A HostMemWrite outside the window, as a step. -/
theorem step_memWrite {a : Word} {v : Byte} {rest : List Input} (h : s.hostNext (.memWrite a v) rest)
    (ho : s.writeOwned a.toNat = false) :
    step s = .next ((s.withInputs rest).clearResponse.hostStore a.toNat v) :=
  (step_hostNext s _ rest h).trans (hostMemWrite_not_owned (s := (s.withInputs rest).clearResponse) ho v)

/-- A HostMemRead outside the window, as a step. -/
theorem step_memRead {a : Word} {rest : List Input} (h : s.hostNext (.memRead a) rest)
    (ho : s.readOwned a.toNat = false) :
    step s = .next { s with inputs := rest, response := some (.mem (s.hostByte a.toNat)) } :=
  (step_hostNext s _ rest h).trans (hostMemRead_not_owned (s := (s.withInputs rest).clearResponse) ho)

/-- With no window open no read is refused (70_reset_and_hazards.md R232). -/
theorem readOwned_of_window_none (h : s.window = none) (a : Nat) : s.readOwned a = false := by
  simp [State.readOwned, h]

/-! ### The register port and the interrupt line -/

/-- A register read as a step. -/
theorem step_regRead {i : RegIndex} {rest : List Input} (h : s.hostNext (.regRead i) rest) :
    step s = .next { s with
      inputs := rest, response := some (.reg (s.readPort i))
      window := if i = 2#6 ∧ s.busy = false then none else s.window } := by
  rw [step_hostNext s _ rest h]
  exact congrArg Host.Outcome.next (hostRegRead_eq i _)

/-- The STATUS read that sees BUSY = 0, as a step: the window ends (70_reset_and_hazards.md R232). -/
theorem step_statusRead {rest : List Input} (hb : s.busy = false) (h : s.hostNext (.regRead 2#6) rest) :
    step s = .next { s with inputs := rest, response := some (.reg (s.readPort 2#6)), window := none } := by
  rw [step_regRead h, if_pos ⟨rfl, hb⟩]

/-- After the STATUS read that sees BUSY = 0 the host reads any byte of BUF (20_memory.md R72). -/
theorem runSteps_statusRead_memRead {a : Word} {rest : List Input} (hb : s.busy = false)
    (h : s.hostNext (.regRead 2#6) (.host (.memRead a) :: rest)) :
    runSteps 2 s = .next { s with inputs := rest, response := some (.mem (s.hostByte a.toNat)), window := none } := by
  refine (runSteps_succ_of_next 1 _ _ (step_statusRead hb h)).trans ?_
  exact runSteps_succ_of_next 0 _ _ (step_memRead ⟨h.1, rfl⟩ (readOwned_of_window_none rfl _))

/-- A look at the interrupt line as a step. -/
theorem step_irqSample {rest : List Input} (h : s.hostNext .irqSample rest) :
    step s = .next { s with inputs := rest, response := some (.irq s.irq) } :=
  step_hostNext s _ rest h

/-- No interrupt is up while a command runs (42_commands.md R161). -/
theorem busy_eq_false_of_irq (h : s.Inv) (hirq : s.irq = true) : s.busy = false := by
  obtain ⟨-, -, ⟨-, hrun, -⟩, -⟩ := h
  by_contra hb
  obtain ⟨hdone, herror, -⟩ := hrun (by simpa using hb)
  simp [State.irq, hdone, herror] at hirq

/-! ### What a running command's window leaves to the host -/

/-- While a command runs a write is refused on its own regions alone (20_memory.md R73). -/
theorem writeOwned_of_busy (h : s.Inv) (hb : s.busy = true) (a : Nat) : s.writeOwned a = s.opl.usesAt s.geom a := by
  obtain ⟨-, -, -, -, -, hw, -⟩ := h
  simp [State.writeOwned, hw hb]

/-- While a command runs a read is refused on its write regions alone (20_memory.md R73). -/
theorem readOwned_of_busy (h : s.Inv) (hb : s.busy = true) (a : Nat) : s.readOwned a = s.opl.writesAt s.geom a := by
  obtain ⟨-, -, -, -, -, hw, -⟩ := h
  simp [State.readOwned, hw hb]

/-! ### The obligations -/

/-- Settles O35: the two BUF accesses as steps, on each side of MEM_SIZE. -/
theorem bufPortReadsAndWritesOneByte : Obligations.BufPortReadsAndWritesOneByte := by
  intro s a v rest
  refine ⟨fun h ho => ⟨fun ha => ?_, fun ha => ?_⟩, fun h ho => ⟨fun ha => ?_, fun ha => ?_⟩⟩
  · rw [step_memRead h ho, State.hostByte, if_pos ha]
  · rw [step_memRead h ho, State.hostByte, if_neg (Nat.not_lt.mpr ha)]
  · exact ⟨_, step_memWrite h ho, hostStore_eq _ _ _,
      bufByte_hostStore_self (s := (s.withInputs rest).clearResponse) ha v,
      fun b hb => bufByte_hostStore_ne (s := (s.withInputs rest).clearResponse) (.inl hb) v⟩
  · exact (step_memWrite h ho).trans (congrArg _ (hostStore_of_le (s := (s.withInputs rest).clearResponse) ha v))

/-- Settles O60: the open window is the running command's, so outside its regions no access is refused, and both accesses
are the BUF port's. -/
theorem runningCommandOwnsNothingElse : Obligations.RunningCommandOwnsNothingElse := by
  intro s a v rest hinv hb hin hraw hout
  have hgeom : s.geom = s.regGeom := by
    obtain ⟨-, -, -, hg, -⟩ := hinv
    exact (hg hb).1
  have hfree : s.opl.usesAt s.geom a.toNat = false := by
    rw [← Bool.not_eq_true, usesAt_iff, hgeom]
    rintro (⟨hop, h⟩ | h | ⟨hop, h⟩)
    · exact hin hop h
    · exact hraw h
    · exact hout hop h
  have hw : s.writeOwned a.toNat = false := (writeOwned_of_busy hinv hb _).trans hfree
  have hr : s.readOwned a.toNat = false :=
    (readOwned_of_busy hinv hb _).trans (writesAt_eq_false_of_not_usesAt hfree)
  exact ⟨fun h => step_memRead h hr, fun h => ⟨_, step_memWrite h hw, hostStore_eq _ _ _,
    fun ha => bufByte_hostStore_self (s := (s.withInputs rest).clearResponse) ha v,
    fun b hb => bufByte_hostStore_ne (s := (s.withInputs rest).clearResponse) hb v⟩⟩

/-- Settles O38: the STATUS read ends the window, so the BUF read after it is the BUF port's. -/
theorem statusReadReleasesBuf : Obligations.StatusReadReleasesBuf := by
  intro s a rest hb ha h
  refine ⟨_, step_statusRead hb h, rfl, rfl, _, step_memRead ⟨h.1, rfl⟩ (readOwned_of_window_none rfl _), ?_⟩
  exact congrArg (fun d => some (Response.mem d)) (if_pos ha)

/-- Settles O39: the look changes the host's side alone; with the line up no command runs, so the STATUS read ends the
window and the BUF read is the BUF port's. -/
theorem interruptThenStatusReleasesBuf : Obligations.InterruptThenStatusReleasesBuf := by
  intro s rest h
  refine ⟨step_irqSample h, ?_⟩
  rintro a more hinv hirq ha rfl
  have hb : s.busy = false := busy_eq_false_of_irq hinv hirq
  have hbyte : s.hostByte a.toNat = s.bufByte a.toNat := if_pos ha
  rw [← hbyte]
  refine (runSteps_succ_of_next 2 _ _ (step_irqSample h)).trans ?_
  exact runSteps_statusRead_memRead hb ⟨h.1, rfl⟩

/-- Settles O40: a register read as a step; the window is kept unless the read is of STATUS with BUSY = 0. -/
theorem registerReadsHaveNoSideEffect : Obligations.RegisterReadsHaveNoSideEffect := by
  intro s i rest h
  refine ⟨_, step_regRead h, rfl, fun hi => if_neg ?_⟩
  rintro ⟨rfl, hb⟩
  simp [hb] at hi

end Sys2Proof.Machine
end

section
/-!
PROOFS of the memory family (20_memory.md): a host write outside the window beside an engine step. An engine step reads and
writes used bytes alone, so it does not see a byte stored elsewhere, nor the host's own side of the state.
-/
namespace Sys2Proof.Machine

variable {s t : State}

/-! ### Stores to two addresses -/

/-- Stores to two addresses come in either order, whatever the list: each places its entry by its own address, and the
order of the two addresses and of the head's decides both placings alike. -/
theorem store_comm (m : List Host.Cell) {a b : Nat} (h : a ≠ b) (v w : Byte) :
    Memory.store (Memory.store m a v) b w = Memory.store (Memory.store m b w) a v := by
  induction m with
  | nil => grind [Memory.store]
  | cons c m ih => grind [Memory.store]

/-- A store outside the interval redrawn can come before or after the redraw. -/
theorem redraw_store_comm (n : Nat) (draw : Nat → Byte) (base k : Nat) (m : List Host.Cell) {a : Nat} (v : Byte)
    (ha : ¬(base ≤ a ∧ a < base + k)) :
    Memory.redraw n draw base k (Memory.store m a v) = Memory.store (Memory.redraw n draw base k m) a v := by
  induction k with
  | zero => rfl
  | succ k ih =>
    simp only [Memory.redraw, ih (by omega)]
    split
    · exact store_comm _ (by omega) _ _
    · rfl

theorem setBufByte_comm (s : State) {a b : Nat} (h : a ≠ b) (v w : Byte) :
    (s.setBufByte a v).setBufByte b w = (s.setBufByte b w).setBufByte a v := by
  simp only [State.setBufByte, store_comm s.buf h v w]

/-! ### A store beside the engine's own updates -/

theorem advanceDefilter_setBufByte (s : State) (r col a : Nat) (v : Byte) :
    (s.setBufByte a v).advanceDefilter r col = (s.advanceDefilter r col).setBufByte a v := by
  simp only [advanceDefilter_eq]
  rfl

theorem advanceFlip_setBufByte (s : State) (i k a : Nat) (v : Byte) :
    (s.setBufByte a v).advanceFlip i k = (s.advanceFlip i k).setBufByte a v := by
  simp only [advanceFlip_eq]
  rfl

theorem redrawRegion_setBufByte (s : State) (q : Region) {a : Nat} (v : Byte) (ha : q.has a = false) :
    (s.setBufByte a v).redrawRegion q = (s.redrawRegion q).setBufByte a v := by
  have hout : ¬(q.base ≤ a ∧ a < q.base + q.size) := by simpa [Region.has] using ha
  simp only [State.redrawRegion, State.setBufByte, redraw_store_comm _ _ _ _ _ v hout]

theorem foldl_redrawRegion_setBufByte (qs : List Region) (s : State) {a : Nat} (v : Byte)
    (ha : qs.any (·.has a) = false) :
    qs.foldl (fun u q => u.redrawRegion q) (s.setBufByte a v) =
      (qs.foldl (fun u q => u.redrawRegion q) s).setBufByte a v := by
  induction qs generalizing s with
  | nil => rfl
  | cons q qs ih =>
    rw [List.any_cons, Bool.or_eq_false_iff] at ha
    rw [List.foldl_cons, List.foldl_cons, redrawRegion_setBufByte s q v ha.1, ih _ ha.2]

/-- A store outside the write regions can come before or after InvalidFilterType. -/
theorem invalidFilterType_setBufByte (s : State) (r : Nat) (b : Byte) {a : Nat} (v : Byte)
    (ha : s.opl.writesAt s.geom a = false) :
    (s.setBufByte a v).invalidFilterType r b = (s.invalidFilterType r b).setBufByte a v := by
  have hfold := foldl_redrawRegion_setBufByte (s.opl.writes s.geom)
    (s.raiseError .invalidFilterType (BitVec.ofNat 32 (r * s.geom.lineBytes)) (BitVec.ofNat 32 b.toNat)) v ha
  exact congrArg (fun u : State => { u with draws := s.draws + 1 }) hfold

/-! ### The engine does not see a byte its command does not use -/

theorem bufByte_setBufByte_of_usesAt {c : Command} {g : Geom} {a b : Nat} (s : State) (v : Byte)
    (ha : c.usesAt g a = false) (hb : c.usesAt g b = true) : (s.setBufByte a v).bufByte b = s.bufByte b :=
  bufByte_setBufByte_ne _ _ _ _ fun hba => by simp [← hba, hb] at ha

/-- The references of a data byte are RAW bytes, so an unused byte is none of them (40_defilter.md R101, R102). -/
theorem outByte_setBufByte {r col a : Nat} (hop : s.opl ≠ .flip) (hr : r < s.geom.rows) (hcol : col < s.geom.rowBytes)
    (ha : s.opl.usesAt s.geom a = false) (v : Byte) (pred : Nat → Nat → Nat → Nat) :
    (s.setBufByte a v).outByte pred r col = s.outByte pred r col := by
  have raw : ∀ q c, q < s.geom.rows → c < s.geom.rowBytes →
      (s.setBufByte a v).bufByte (s.geom.rawAddr q c) = s.bufByte (s.geom.rawAddr q c) :=
    fun q c hq hc => bufByte_setBufByte_of_usesAt s v ha (usesAt_rawAddr s.opl hq hc)
  have hx := bufByte_setBufByte_of_usesAt s v ha (usesAt_dataAddr hop hr hcol)
  simp only [State.outByte, State.filteredByte, State.leftRef, State.upRef, State.upLeftRef, setBufByte_geom, hx,
    raw r (col - Config.bpp) hr (by omega), raw (r - 1) col (by omega) hcol,
    raw (r - 1) (col - Config.bpp) (by omega) (by omega)]

/-- A store to an unused byte can come before or after an engine step (20_memory.md R73). -/
theorem engineStep_setBufByte (h : s.Inv) (ht : engineStep s = .next t) {a : Nat}
    (ha : s.opl.usesAt s.geom a = false) (v : Byte) : engineStep (s.setBufByte a v) = .next (t.setBufByte a v) := by
  have same : ∀ {b}, s.opl.usesAt s.geom b = true → (s.setBufByte a v).bufByte b = s.bufByte b :=
    bufByte_setBufByte_of_usesAt s v ha
  have ne : ∀ {b}, s.opl.usesAt s.geom b = true → a ≠ b := fun hb hab => by simp [hab, hb] at ha
  rcases engineStep_cases s t ht with ⟨hes, rfl⟩ | ⟨r, f, hes, hm, hf, rfl⟩ | ⟨r, hes, hm, h4, rfl⟩ |
    ⟨r, col, hes, h1, h2, rfl⟩ | ⟨i, k, hes, h1, h2, rfl⟩
  · exact engineStep_idle hes
  · obtain ⟨hr, hop⟩ := position_dfHdr h hes
    exact engineStep_latch (s := s.setBufByte a v) hes hm ((same (usesAt_ftypeAddr hop hr)).trans hf)
  · obtain ⟨hr, hop⟩ := position_dfHdr h hes
    have hb := same (usesAt_ftypeAddr hop hr)
    have hstep := engineStep_invalid (s := s.setBufByte a v) hes hm (hb ▸ h4)
    rwa [setBufByte_geom, hb, invalidFilterType_setBufByte s r _ v (writesAt_eq_false_of_not_usesAt ha)] at hstep
  · obtain ⟨hr, hcol, hop⟩ := position_dfByte h hes
    have hstep := engineStep_reconstruct (s := s.setBufByte a v) hes h1 h2
    rwa [setBufByte_geom, setBufByte_ft, outByte_setBufByte hop hr hcol ha,
      setBufByte_comm s (ne (usesAt_rawAddr s.opl hr hcol)), advanceDefilter_setBufByte] at hstep
  · obtain ⟨hi, hk, hop⟩ := position_flByte h hes
    have hstep := engineStep_copy (s := s.setBufByte a v) hes h1 h2
    rwa [setBufByte_geom, same (usesAt_rawAddr s.opl hi hk),
      setBufByte_comm s (ne (usesAt_of_writesAt (writesAt_flipAddr hop hi hk))), advanceFlip_setBufByte] at hstep

/-- A host write of an unused byte can come before or after an engine step (20_memory.md R73). -/
theorem engineStep_hostStore (h : s.Inv) (ht : engineStep s = .next t) {a : Nat}
    (ha : s.opl.usesAt s.geom a = false) (v : Byte) : engineStep (s.hostStore a v) = .next (t.hostStore a v) := by
  have hmem : t.memSize = s.memSize := by rw [engineStep_frame ht]
  by_cases hlt : a < s.memSize
  · rw [hostStore_of_lt hlt, hostStore_of_lt (hmem ▸ hlt)]
    exact engineStep_setBufByte h ht ha v
  · rw [Nat.not_lt] at hlt
    rwa [hostStore_of_le hlt, hostStore_of_le (hmem ▸ hlt)]

/-! ### The engine does not see the host's own side -/

theorem redrawWrites_hostSide (c : Command) (g : Geom) (s : State) (l : List Input) (d : Option Response) :
    { s with inputs := l, response := d }.redrawWrites c g =
      { s.redrawWrites c g with inputs := l, response := d } := by
  cases c <;> rfl

/-- The engine neither reads nor changes the schedule and the data returned to the host (log entry 1). -/
theorem engineStep_hostSide (ht : engineStep s = .next t) (l : List Input) (d : Option Response) :
    engineStep { s with inputs := l, response := d } = .next { t with inputs := l, response := d } := by
  rcases engineStep_cases s t ht with ⟨hes, rfl⟩ | ⟨r, f, hes, hm, hf, rfl⟩ | ⟨r, hes, hm, h4, rfl⟩ |
    ⟨r, col, hes, h1, h2, rfl⟩ | ⟨i, k, hes, h1, h2, rfl⟩
  · exact engineStep_idle hes
  · exact engineStep_latch (s := { s with inputs := l, response := d }) hes hm hf
  · exact (engineStep_invalid (s := { s with inputs := l, response := d }) hes hm h4).trans
      (congrArg _ (redrawWrites_hostSide s.opl s.geom (s.raiseError .invalidFilterType _ _) l d))
  · rw [engineStep_reconstruct (s := { s with inputs := l, response := d }) hes h1 h2, advanceDefilter_eq,
      advanceDefilter_eq]
    rfl
  · rw [engineStep_copy (s := { s with inputs := l, response := d }) hes h1 h2, advanceFlip_eq, advanceFlip_eq]
    rfl

/-! ### The two orders -/

@[simp] theorem hostStore_inReset (a : Nat) (v : Byte) (s : State) : (s.hostStore a v).inReset = s.inReset := by
  rw [hostStore_eq]

@[simp] theorem hostStore_inputs (a : Nat) (v : Byte) (s : State) : (s.hostStore a v).inputs = s.inputs := by
  rw [hostStore_eq]

theorem hostStore_withInputs (a : Nat) (v : Byte) (s : State) (l : List Input) :
    (s.hostStore a v).withInputs l = (s.withInputs l).hostStore a v :=
  apply_ite (State.withInputs l) (a < s.memSize) (s.setBufByte a v) s

/-- The engine's step and then the host's write: the engine's next state with the byte stored. -/
theorem runSteps_engine_memWrite {a : Word} {v : Byte} {rest : List Input} (hnr : s.inReset = false)
    (ht : engineStep s = .next t) (ho : s.writeOwned a.toNat = false) :
    runSteps 2 (s.withInputs (.engine :: .host (.memWrite a v) :: rest)) =
      .next ({ t with inputs := rest, response := none }.hostStore a.toNat v) := by
  have hengine := (step_engineNext (s.withInputs (.engine :: .host (.memWrite a v) :: rest)) _ ⟨hnr, .inl rfl⟩).trans
    (engineStep_hostSide ht (.host (.memWrite a v) :: rest) s.response)
  have hnr' : t.inReset = false := by rw [engineStep_frame ht]; exact hnr
  have ho' : t.writeOwned a.toNat = false := by rw [engineStep_frame ht]; exact ho
  refine (runSteps_succ_of_next 1 _ _ hengine).trans ?_
  exact runSteps_succ_of_next 0 _ _ (step_memWrite ⟨hnr', rfl⟩ ho')

/-- The host's write of an unused byte and then the engine's step: the same state. -/
theorem runSteps_memWrite_engine (h : s.Inv) {a : Word} {v : Byte} {rest : List Input} (hnr : s.inReset = false)
    (ht : engineStep s = .next t) (ho : s.writeOwned a.toNat = false) (ha : s.opl.usesAt s.geom a.toNat = false) :
    runSteps 2 (s.withInputs (.host (.memWrite a v) :: .engine :: rest)) =
      .next ({ t with inputs := rest, response := none }.hostStore a.toNat v) := by
  have hwrite := step_memWrite (s := s.withInputs (.host (.memWrite a v) :: .engine :: rest)) ⟨hnr, rfl⟩ ho
  refine (runSteps_succ_of_next 1 _ _ hwrite).trans (runSteps_succ_of_next 0 _ _ ?_)
  rw [step_engineNext _ rest ⟨by simp [hnr], .inl (by simp)⟩, hostStore_withInputs]
  exact engineStep_hostStore (s := { s with inputs := rest, response := none }) h (engineStep_hostSide ht rest none) ha v

/-! ### The obligation -/

/-- Settles O52: a byte outside the running command's window is one it does not use, so both orders end in the engine's
next state with the byte stored. -/
theorem hostWriteCommutesWithEngineStep : Obligations.HostWriteCommutesWithEngineStep := by
  intro s t a v rest h hnr hb ho hrun
  obtain ⟨u, hu⟩ := engineStep_total h
  have hfree : s.opl.usesAt s.geom a.toNat = false := (writeOwned_of_busy h hb _).symm.trans ho
  rw [← hrun, runSteps_engine_memWrite hnr hu ho, runSteps_memWrite_engine h hnr hu ho hfree]

end Sys2Proof.Machine
end

section
/-!
PROOFS of the encoding family (30_encoding.md): decode and encode as inverses, the refused codes, and row opcodes where no
row is under way.
-/
namespace Sys2Proof.Machine

/-! ### Encode, then decode -/

/-- What PerInstr says of each instruction, for all of them. -/
theorem encodingStatement (i : Instr) : Laws.Encoding.Statement i :=
  match i with
  | .none => Laws.Encoding.none
  | .sub => Laws.Encoding.sub
  | .up => Laws.Encoding.up
  | .avg => Laws.Encoding.avg
  | .paeth => Laws.Encoding.paeth
  | .nop => Laws.Encoding.nop
  | .defilter => Laws.Encoding.defilter
  | .flip => Laws.Encoding.flip
  | .convert => Laws.Encoding.convert

@[simp] theorem decode_encode (i : Instr) : decode (encode i) = .ok i := (encodingStatement i).1

theorem wellFormedIn_form_encode (i : Instr) : i.wellFormedIn (encode i).form = true :=
  ((encodingStatement i).2 _).mpr rfl

/-! ### Decode, then encode -/

theorem encode_filter_instr (f : FilterType) : encode f.instr = .ft f.code := by cases f <;> rfl

/-- A command word whose RSV is 0 is its OP, zero-extended (30_encoding.md R84). -/
theorem setWidth_op_of_rsv_eq_zero {w : Word} (h : w.extractLsb' 4 28 = 0#28) :
    (w.extractLsb' 0 4).setWidth 32 = w := by
  have hrsv := congrArg BitVec.toNat h
  apply BitVec.eq_of_toNat_eq
  simp only [BitVec.extractLsb'_toNat, BitVec.toNat_setWidth, Nat.shiftRight_eq_div_pow] at hrsv ⊢
  simp only [BitVec.toNat_ofNat] at hrsv
  omega

/-- A command word is the code of an instruction or is refused by name. -/
theorem encode_eq_or_decode_cmd_error (w : Word) :
    (∃ i, encode i = .cmd w) ∨ decode (.cmd w) = .error (.illegalCommand w) := by
  by_cases hr : w.extractLsb' 4 28 = 0#28
  case neg => exact .inr (if_pos hr)
  have code : ∀ {o : BitVec 4}, w.extractLsb' 0 4 = o → Code.cmd (o.setWidth 32) = .cmd w := fun ho =>
    congrArg Code.cmd (ho ▸ setWidth_op_of_rsv_eq_zero hr)
  by_cases h0 : w.extractLsb' 0 4 = 0#4
  · exact .inl ⟨.nop, code h0⟩
  by_cases h1 : w.extractLsb' 0 4 = 1#4
  · exact .inl ⟨.defilter, code h1⟩
  by_cases h2 : w.extractLsb' 0 4 = 2#4
  · exact .inl ⟨.flip, code h2⟩
  by_cases h3 : w.extractLsb' 0 4 = 3#4
  · exact .inl ⟨.convert, code h3⟩
  exact .inr (by simp [decode, decodeCommand, hr, h0, h1, h2, h3])

/-- Either form: a code is an instruction's or is refused. -/
theorem encode_eq_or_decode_error (c : Code) : (∃ i, encode i = c) ∨ ∃ e, decode c = .error e := by
  cases c with
  | ft t =>
    rcases decode_ft_cases t with ⟨f, rfl, -⟩ | ⟨-, he⟩
    · exact .inl ⟨f.instr, encode_filter_instr f⟩
    · exact .inr ⟨_, he⟩
  | cmd w => exact (encode_eq_or_decode_cmd_error w).imp id fun he => ⟨_, he⟩

theorem decode_eq_ok_iff (c : Code) (i : Instr) : decode c = .ok i ↔ encode i = c := by
  refine ⟨fun h => ?_, fun h => h ▸ decode_encode i⟩
  rcases encode_eq_or_decode_error c with ⟨j, rfl⟩ | ⟨e, he⟩
  · rw [decode_encode, Except.ok.injEq] at h
    rw [h]
  · simp [he] at h

/-! ### The refused codes -/

theorem code_toNat_le (f : FilterType) : f.code.toNat ≤ 4 := by cases f <;> decide

/-- A row byte above 4 is refused (30_encoding.md R86). -/
theorem decode_ft_of_gt {t : Byte} (h : 4 < t.toNat) : decode (.ft t) = .error (.invalidFilterType t) := by
  rcases decode_ft_cases t with ⟨f, rfl, -⟩ | ⟨-, he⟩
  · exact absurd h (Nat.not_lt.mpr (code_toNat_le f))
  · exact he

/-- The fields of a command's code (30_encoding.md R84). -/
theorem fields_of_encode_eq_cmd {i : Instr} {w : Word} (h : encode i = .cmd w) :
    w.extractLsb' 4 28 = 0#28 ∧ (w.extractLsb' 0 4).toNat < 4 := by
  cases i with
  | none | sub | up | avg | paeth => cases h
  | nop | defilter | flip | convert => cases h; decide

/-- A command word with RSV not 0 or OP above 3 is refused (30_encoding.md R84, R86). -/
theorem decode_cmd_of_fields {w : Word} (h : w.extractLsb' 4 28 ≠ 0#28 ∨ 4 ≤ (w.extractLsb' 0 4).toNat) :
    decode (.cmd w) = .error (.illegalCommand w) := by
  rcases encode_eq_or_decode_cmd_error w with ⟨i, hi⟩ | he
  · obtain ⟨hrsv, hop⟩ := fields_of_encode_eq_cmd hi
    exact absurd h (not_or.mpr ⟨not_not.mpr hrsv, Nat.not_le.mpr hop⟩)
  · exact he

/-! ### Row opcodes where no row is under way -/

theorem exec_filter_eq_execRow (f : FilterType) (s : State) : exec f.instr s = execRow f f.pred s := by
  cases f <;> rfl

/-- In IDLE and FL_BYTE a row opcode has no row to act on (log entry 7). -/
theorem execRow_offRow (t : FilterType) (pred : Nat → Nat → Nat → Nat) {s : State}
    (h : s.es = .idle ∨ ∃ j k, s.es = .flByte j k) : execRow t pred s = .refused .noRowUnderWay := by
  rcases h with h | ⟨j, k, h⟩ <;> simp only [execRow, h]

/-! ### The obligations -/

/-- Settles O2: every code is an instruction's code or is refused, and `decode_encode` says what the first kind decodes to. -/
theorem decodeAgreesWithEncode : Obligations.DecodeAgreesWithEncode := by
  refine ⟨fun c i => ⟨decode_eq_ok_iff c i, fun h => ?_⟩, fun _ => decode_ft_of_gt, fun _ => decode_cmd_of_fields⟩
  rw [← (decode_eq_ok_iff c i).mp h]
  exact wellFormedIn_form_encode i

/-- Settles O1: each spec code is its instruction's `encode`. -/
theorem specCodesDecode : Obligations.SpecCodesDecode :=
  ⟨decode_encode .none, decode_encode .sub, decode_encode .up, decode_encode .avg, decode_encode .paeth,
    decode_encode .nop, decode_encode .defilter, decode_encode .flip, decode_encode .convert⟩

/-- Settles O16: the five row opcodes are the filters' instructions, which run `execRow`. -/
theorem rowOpcodesRefusedOffRow : Obligations.RowOpcodesRefusedOffRow := by
  intro i hi s hoff
  obtain ⟨f, -, rfl⟩ : ∃ f ∈ [FilterType.none, .sub, .up, .avg, .paeth], f.instr = i := List.mem_map.mp hi
  rw [exec_filter_eq_execRow, execRow_offRow _ _ hoff]

end Sys2Proof.Machine
end

section
/-!
PROOFS of the defilter family (40_defilter.md): the predictors and the references, and the five row opcodes at a data byte
and at a row's header.
-/
namespace Sys2Proof.Machine

variable {s : State} {r col : Nat}

/-! ### References that do not exist are 0 (40_defilter.md R101) -/

theorem leftRef_of_lt (s : State) (r : Nat) (h : col < 4) : s.leftRef r col = 0 := if_neg (Nat.not_le.mpr h)

theorem upRef_zero (s : State) (col : Nat) : s.upRef 0 col = 0 := if_neg (by decide)

theorem upLeftRef_zero (s : State) (col : Nat) : s.upLeftRef 0 col = 0 := if_neg fun h => absurd h.1 (by decide)

theorem upLeftRef_of_lt (s : State) (r : Nat) (h : col < 4) : s.upLeftRef r col = 0 :=
  if_neg fun h' => absurd h'.2 (Nat.not_le.mpr h)

/-! ### Predictors -/

/-- With left alone Paeth is Sub (40_defilter.md R107). -/
theorem predPaeth_left (a : Nat) : predPaeth a 0 0 = a := by simp [predPaeth]

/-- With up alone Paeth is Up (40_defilter.md R107). -/
theorem predPaeth_up (b : Nat) : predPaeth 0 b 0 = b := by
  simp only [predPaeth]
  split_ifs <;> omega

theorem predPaeth_mem (a b c : Nat) : predPaeth a b c = a ∨ predPaeth a b c = b ∨ predPaeth a b c = c := by
  simp only [predPaeth]
  split_ifs <;> simp

/-- Settles O12: Avg's predictor is at most the larger of its two bytes, and every other one is 0 or one of the three. -/
theorem predictorsOfBytesAreBytes : Obligations.PredictorsOfBytesAreBytes := by
  intro f a b c ha hb hc
  cases f with
  | none => exact Nat.zero_lt_succ 255
  | sub => exact ha
  | up => exact hb
  | avg =>
    change (a + b) / 2 < 256
    omega
  | paeth =>
    change predPaeth a b c < 256
    rcases predPaeth_mem a b c with h | h | h <;> rw [h] <;> assumption

/-- Settles O11, by which of the three references the distances choose. -/
theorem paethPicksNearestInOrder : Obligations.PaethPicksNearestInOrder := by
  intro a b c
  simp only [predPaeth]
  split_ifs with hleft hup
  · exact ⟨.inl rfl, Nat.le_refl _, hleft.1, hleft.2, fun _ => rfl, fun h => absurd rfl h⟩
  · exact ⟨.inr (.inl rfl), by omega, Nat.le_refl _, hup, by omega, fun _ _ => rfl⟩
  · exact ⟨.inr (.inr rfl), by omega, by omega, Nat.le_refl _, by omega, by omega⟩

/-- Settles O5: `Config.bpp` is 4, and `Geom.rawAddr` is the address written out. -/
theorem referencesComeFromRaw : Obligations.ReferencesComeFromRaw := by
  intro s r col
  exact ⟨rfl, rfl, rfl⟩

/-! ### A row opcode at a data byte -/

theorem toNat_outByte (s : State) (pred : Nat → Nat → Nat → Nat) (r col : Nat) :
    (s.outByte pred r col).toNat =
      (s.filteredByte r col + pred (s.leftRef r col) (s.upRef r col) (s.upLeftRef r col)) % 256 :=
  BitVec.toNat_ofNat _ _

/-- A filtered byte is its own residue, so a predictor of 0 passes it unchanged (40_defilter.md R103). -/
theorem filteredByte_mod (s : State) (r col : Nat) : s.filteredByte r col % 256 = s.filteredByte r col :=
  Nat.mod_eq_of_lt (s.bufByte (s.geom.dataAddr r col)).isLt

/-- Inside BUF a filter's instruction completes, writes (X + Pred) mod 256 and raises no error (40_defilter.md R102). -/
theorem exec_filter_writes (f : FilterType) (hes : s.es = .dfByte r col) (h1 : s.geom.dataAddr r col < s.memSize)
    (h2 : s.geom.rawAddr r col < s.memSize) :
    ∃ t, exec f.instr s = .next t ∧
      (t.bufByte (s.geom.rawAddr r col)).toNat =
        (s.filteredByte r col + f.pred (s.leftRef r col) (s.upRef r col) (s.upLeftRef r col)) % 256 ∧
      t.error = s.error ∧ t.errCode = s.errCode := by
  refine ⟨_, (exec_filter_dfByte f s r col hes).trans (reconstructByte_next f.pred r col s h1 h2), ?_, ?_, ?_⟩
  · rw [bufByte_advanceDefilter, bufByte_setBufByte_self, toNat_outByte]
  · rw [advanceDefilter_eq]; rfl
  · rw [advanceDefilter_eq]; rfl

/-- Filters whose predictors agree on a data byte's references do the same there. -/
theorem exec_filter_congr {f g : FilterType} (hes : s.es = .dfByte r col)
    (h : f.pred (s.leftRef r col) (s.upRef r col) (s.upLeftRef r col) =
      g.pred (s.leftRef r col) (s.upRef r col) (s.upLeftRef r col)) : exec f.instr s = exec g.instr s := by
  rw [exec_filter_dfByte f s r col hes, exec_filter_dfByte g s r col hes]
  simp only [reconstructByte, h]

/-- Settles O6: the predictor is 0. -/
theorem noneCopiesTheByte : Obligations.NoneCopiesTheByte := by
  refine ⟨rfl, fun s r col hes h1 h2 => ?_⟩
  obtain ⟨t, ht, hout, herr⟩ := exec_filter_writes .none hes h1 h2
  exact ⟨t, ht, hout.trans (filteredByte_mod s r col), herr⟩

/-- Settles O7: the predictor is left, which is 0 where col < 4. -/
theorem subAddsLeft : Obligations.SubAddsLeft := by
  refine ⟨rfl, fun s r col hes h1 h2 => ?_⟩
  obtain ⟨t, ht, hout, herr⟩ := exec_filter_writes .sub hes h1 h2
  change _ = (s.filteredByte r col + s.leftRef r col) % 256 at hout
  refine ⟨t, ht, hout, fun hcol => ?_, herr⟩
  rw [hout, leftRef_of_lt s r hcol, Nat.add_zero, filteredByte_mod]

/-- Settles O8: the predictor is up, which is 0 in row 0. -/
theorem upAddsUp : Obligations.UpAddsUp := by
  refine ⟨rfl, fun s r col hes h1 h2 => ?_⟩
  obtain ⟨t, ht, hout, herr⟩ := exec_filter_writes .up hes h1 h2
  change _ = (s.filteredByte r col + s.upRef r col) % 256 at hout
  refine ⟨t, ht, hout, ?_, herr⟩
  rintro rfl
  rw [hout, upRef_zero, Nat.add_zero, filteredByte_mod]

/-- Settles O9: the predictor is half the sum of left and up, each 0 at its edge. -/
theorem avgAddsHalfTheSum : Obligations.AvgAddsHalfTheSum := by
  refine ⟨rfl, fun s r col hes h1 h2 => ?_⟩
  obtain ⟨t, ht, hout, herr⟩ := exec_filter_writes .avg hes h1 h2
  change _ = (s.filteredByte r col + (s.leftRef r col + s.upRef r col) / 2) % 256 at hout
  refine ⟨t, ht, hout, ?_, fun hcol => ?_, ?_, herr⟩
  · rintro rfl
    rw [hout, upRef_zero, Nat.add_zero]
  · rw [hout, leftRef_of_lt s r hcol, Nat.zero_add]
  · rintro rfl hcol
    rw [hout, upRef_zero, leftRef_of_lt s 0 hcol]
    exact filteredByte_mod s 0 col

/-- Settles O10: the predictor is Paeth's, with left alone in row 0 and up alone where col < 4. -/
theorem paethAddsNearest : Obligations.PaethAddsNearest := by
  refine ⟨rfl, fun s r col hes h1 h2 => ?_⟩
  obtain ⟨t, ht, hout, herr⟩ := exec_filter_writes .paeth hes h1 h2
  change _ = (s.filteredByte r col + predPaeth (s.leftRef r col) (s.upRef r col) (s.upLeftRef r col)) % 256 at hout
  refine ⟨t, _, _, ht, rfl, rfl, hout, ?_, fun hcol => ?_, herr⟩
  · rintro rfl
    rw [hout, upRef_zero, upLeftRef_zero, predPaeth_left]
  · rw [hout, leftRef_of_lt s r hcol, upLeftRef_of_lt s r hcol, predPaeth_up]

/-- Settles O13: at an edge the two predictors agree, as the references that do not exist are 0. -/
theorem filtersCoincideAtEdges : Obligations.FiltersCoincideAtEdges := by
  intro s r col hes
  refine ⟨?_, fun hcol => ?_⟩
  · rintro rfl
    refine ⟨exec_filter_congr (f := .up) (g := .none) hes (upRef_zero s col),
      exec_filter_congr (f := .paeth) (g := .sub) hes ?_⟩
    rw [upRef_zero, upLeftRef_zero]
    exact predPaeth_left _
  · refine ⟨exec_filter_congr (f := .sub) (g := .none) hes (leftRef_of_lt s r hcol),
      exec_filter_congr (f := .paeth) (g := .up) hes ?_⟩
    rw [leftRef_of_lt s r hcol, upLeftRef_of_lt s r hcol]
    exact predPaeth_up _

/-! ### The frame, and the row header -/

theorem exists_filter_of_mem_rowOpcodes {i : Instr}
    (hi : i ∈ [Instr.none, Instr.sub, Instr.up, Instr.avg, Instr.paeth]) : ∃ f : FilterType, f.instr = i := by
  obtain ⟨f, -, hf⟩ : ∃ f ∈ [FilterType.none, .sub, .up, .avg, .paeth], f.instr = i := List.mem_map.mp hi
  exact ⟨f, hf⟩

/-- R109's advance raises DONE at completion alone. -/
theorem advanceDefilter_done (s : State) (r col : Nat) :
    (s.advanceDefilter r col).done = s.done ∨
      ((s.advanceDefilter r col).done = true ∧ (s.advanceDefilter r col).es = .idle) := by
  unfold State.advanceDefilter
  split_ifs
  · exact .inl rfl
  · exact .inl rfl
  · exact .inl rfl
  · exact .inr ⟨rfl, rfl⟩

/-- Settles O14: a row opcode that completes has stored one RAW byte and advanced. -/
theorem rowOpcodesWriteOneByteOnly : Obligations.RowOpcodesWriteOneByteOnly := by
  intro i hi s t r col hes ht
  obtain ⟨f, rfl⟩ := exists_filter_of_mem_rowOpcodes hi
  rw [exec_filter_dfByte f s r col hes] at ht
  rcases reconstructByte_cases f.pred r col s with ⟨-, he⟩ | ⟨-, he⟩ | ⟨-, -, he⟩
  · simp [he] at ht
  · simp [he] at ht
  obtain rfl := Host.Outcome.next.inj (he.symm.trans ht)
  refine ⟨?_, advanceDefilter_done (s.setBufByte _ _) r col, fun a ha => ?_⟩
  · rw [advanceDefilter_eq]
    rfl
  · rw [bufByte_advanceDefilter, bufByte_setBufByte_ne _ _ _ _ ha]

/-- Settles O15: the five row opcodes are the filters' instructions, which latch. -/
theorem rowOpcodesLatchAtHeader : Obligations.RowOpcodesLatchAtHeader := by
  intro s r hes
  exact ⟨exec_filter_dfHdr .none s r hes, exec_filter_dfHdr .sub s r hes, exec_filter_dfHdr .up s r hes,
    exec_filter_dfHdr .avg s r hes, exec_filter_dfHdr .paeth s r hes⟩

end Sys2Proof.Machine
end

section
/-!
PROOFS of the defilter family (40_defilter.md): what a step runs, and the engine's two defilter steps.
-/
namespace Sys2Proof.Machine

/-- A row opcode byte of 0 to 4 is a filter's code (30_encoding.md R83). -/
theorem exists_code_of_le {b : Byte} (h : b.toNat ≤ 4) : ∃ f : FilterType, b = f.code := by
  rcases decode_ft_cases b with ⟨f, hf, -⟩ | ⟨h4, -⟩
  · exact ⟨f, hf⟩
  · exact absurd h (Nat.not_le.mpr h4)

/-- Where the row opcode decodes, DF_HDR(r) runs it (40_defilter.md R108). -/
theorem engineStep_fetch {s : State} {r : Nat} {i : Instr} (hes : s.es = .dfHdr r)
    (ha : s.geom.ftypeAddr r < s.memSize) (hi : decode (.ft (s.bufByte (s.geom.ftypeAddr r))) = .ok i) :
    engineStep s = exec i s := by
  simp only [engineStep, hes, fetchRow, if_neg (Nat.not_le.mpr ha), hi]

/-- A decoded word written to CMD is executed (10_state.md R28, 42_commands.md R160). -/
theorem writePort_cmd {w : Word} {i : Instr} (s : State) (hi : decode (.cmd w) = .ok i) :
    writePort 1#6 w s = exec i s := by
  simp only [writePort, (regAt_cmd_iff 1#6).mpr rfl, writeCommand, hi]

/-- Settles O3: the engine's step at DF_HDR and at DF_BYTE, and the CMD register's write. -/
theorem stepRunsDecodedInstruction : Obligations.StepRunsDecodedInstruction := by
  refine fun s rest => ⟨fun r i hn hes ha hi => ?_, fun r col hn hes => ?_, fun w i hn hi => ?_⟩
  · exact (step_engineNext s rest hn).trans (engineStep_fetch (s := s.withInputs rest) hes ha hi)
  · refine ⟨s.ft.instr, encode_filter_instr s.ft, (step_engineNext s rest hn).trans ?_⟩
    simp only [engineStep, withInputs_es, withInputs_ft, hes]
  · exact (step_hostNext s _ rest hn).trans (writePort_cmd _ hi)

/-- Settles O17: a byte above 4 is refused by the decoder, any other is a filter's code. -/
theorem rowHeaderDispatchesOrRaises : Obligations.RowHeaderDispatchesOrRaises := by
  refine fun s r rest hn hes ha => ⟨fun h4 => ?_, fun h4 => ?_⟩
  · refine ⟨_, (step_engineNext s rest hn).trans (engineStep_invalid (s := s.withInputs rest) hes ha h4), ?_⟩
    rw [invalidFilterType_eq, BitVec.ofNat_toNat]
    rfl
  · obtain ⟨f, hf⟩ := exists_code_of_le h4
    exact ⟨f, hf.symm, (step_engineNext s rest hn).trans (engineStep_latch (s := s.withInputs rest) hes ha hf)⟩

/-- Settles O19: one stored byte, then R109's four ways on. -/
theorem reconstructionStepWritesAndAdvances : Obligations.ReconstructionStepWritesAndAdvances := by
  intro s r col rest hn hes h1 h2
  refine ⟨_, (step_engineNext s rest hn).trans (engineStep_reconstruct (s := s.withInputs rest) hes h1 h2),
    ?_, fun a ha => ?_, fun hc => ?_, fun hc hr => ?_, fun hc hr ho => ?_, fun hc hr ho => ?_⟩
  · rw [bufByte_advanceDefilter]
    exact (congrArg BitVec.toNat (bufByte_setBufByte_self _ _ _)).trans (toNat_outByte s s.ft.pred r col)
  · rw [bufByte_advanceDefilter]
    exact bufByte_setBufByte_ne (s.withInputs rest) _ a _ ha
  · rw [advanceDefilter_nextByte r col (State.setBufByte _ _ (s.withInputs rest)) hc]
    rfl
  · rw [advanceDefilter_nextRow r col (State.setBufByte _ _ (s.withInputs rest)) (Nat.not_lt.mpr hc) hr]
    rfl
  · rw [advanceDefilter_toFlip r col (State.setBufByte _ _ (s.withInputs rest)) (Nat.not_lt.mpr hc)
      (Nat.not_lt.mpr hr) ho]
    rfl
  · rw [advanceDefilter_complete r col (State.setBufByte _ _ (s.withInputs rest)) (Nat.not_lt.mpr hc)
      (Nat.not_lt.mpr hr) ho]
    rfl

end Sys2Proof.Machine
end

section
/-!
PROOFS of the defilter family (40_defilter.md): raw images. A row's types and filtered bytes fix its raw image (R111), and
the forward filter's stream is one that the image itself reconstructs from (R112).
-/
namespace Sys2Proof.Machine

/-! ### The prediction of a byte from an image -/

/-- Pred at byte `col` of row `r` with the references taken from the image `P` (40_defilter.md R100, R101). -/
def FilterType.predAt (t : FilterType) (P : Nat → Nat → Byte) (r col : Nat) : Nat :=
  t.pred (imageRefs P r col).1 (imageRefs P r col).2.1 (imageRefs P r col).2.2

/-- A byte's references are earlier bytes of its row and bytes of the row above, none of them right of it
(40_defilter.md R101). -/
theorem imageRefs_congr {P Q : Nat → Nat → Byte} {r col : Nat}
    (h : ∀ q c, q < r ∧ c ≤ col ∨ q = r ∧ c < col → P q c = Q q c) : imageRefs P r col = imageRefs Q r col := by
  refine Prod.ext (if_ctx_congr .rfl (fun h4 => ?_) fun _ => rfl)
    (Prod.ext (if_ctx_congr .rfl (fun h1 => ?_) fun _ => rfl) (if_ctx_congr .rfl (fun h14 => ?_) fun _ => rfl))
  · rw [h r (col - 4) (by omega)]
  · rw [h (r - 1) col (by omega)]
  · rw [h (r - 1) (col - 4) (by omega)]

theorem predAt_congr (t : FilterType) {P Q : Nat → Nat → Byte} {r col : Nat}
    (h : ∀ q c, q < r ∧ c ≤ col ∨ q = r ∧ c < col → P q c = Q q c) : t.predAt P r col = t.predAt Q r col := by
  unfold FilterType.predAt
  rw [imageRefs_congr h]

theorem code_injective {f t : FilterType} (h : f.code = t.code) : f = t := by
  revert h
  cases f <;> cases t <;> decide

/-! ### Images that a stream reconstructs to -/

/-- `P` is the reconstruction of `n` rows of `m` bytes with row types `B` and filtered bytes `X` (40_defilter.md R111). -/
def Reconstructs (n m : Nat) (B : Nat → Byte) (X P : Nat → Nat → Byte) : Prop :=
  ∀ r col, r < n → col < m → ∀ t : FilterType, B r = t.code →
    P r col = reconstruct (X r col).toNat (t.predAt P r col)

/-- A legal stream has one reconstruction: each byte's equation speaks of earlier bytes alone, so they are equal row by row
and byte by byte. -/
theorem reconstructs_unique {n m : Nat} {B B' : Nat → Byte} {X X' P P' : Nat → Nat → Byte}
    (hB : ∀ r, r < n → B r = B' r) (hX : ∀ r col, r < n → col < m → X r col = X' r col)
    (hlegal : ∀ r, r < n → ∃ t : FilterType, B r = t.code) (h : Reconstructs n m B X P)
    (h' : Reconstructs n m B' X' P') (r col : Nat) (hr : r < n) (hcol : col < m) : P r col = P' r col := by
  induction r using Nat.strong_induction_on generalizing col with
  | _ r ihr =>
    induction col using Nat.strong_induction_on with
    | _ col ihc =>
      obtain ⟨t, ht⟩ := hlegal r hr
      have hpred : t.predAt P r col = t.predAt P' r col := predAt_congr t fun q c hqc => by
        rcases hqc with ⟨hq, hc⟩ | ⟨rfl, hc⟩
        · exact ihr q hq c (by omega) (by omega)
        · exact ihc c hc (by omega)
      rw [h r col hr hcol t ht, h' r col hr hcol t ((hB r hr).symm.trans ht), hX r col hr hcol, hpred]

/-- Adding the prediction undoes the forward filter's subtraction, both modulo 256 (40_defilter.md R112). -/
theorem reconstruct_forwardFilter (t : FilterType) (P : Nat → Nat → Byte) (r col : Nat) :
    reconstruct (forwardFilter t P r col).toNat (t.predAt P r col) = P r col := by
  change BitVec.ofNat 8 ((P r col - BitVec.ofNat 8 (t.predAt P r col)).toNat + t.predAt P r col) = P r col
  rw [BitVec.ofNat_add, BitVec.ofNat_toNat, BitVec.setWidth_eq, BitVec.sub_add_cancel]

/-! ### The images BUF holds -/

/-- The filter-type bytes in IN. -/
def State.typeBytes (s : State) (g : Geom) (r : Nat) : Byte := s.bufByte (g.ftypeAddr r)

/-- The filtered bytes in IN. -/
def State.dataImage (s : State) (g : Geom) (r col : Nat) : Byte := s.bufByte (g.dataAddr r col)

/-- The image in RAW. -/
def State.rawImage (s : State) (g : Geom) (r col : Nat) : Byte := s.bufByte (g.rawAddr r col)

/-- The byte a DF_BYTE step writes, from the images in IN and RAW (40_defilter.md R101, R102). -/
theorem outByte_eq (s : State) (t : FilterType) (r col : Nat) :
    s.outByte t.pred r col =
      reconstruct (s.dataImage s.geom r col).toNat (t.predAt (s.rawImage s.geom) r col) := rfl

theorem defiltered_iff (s : State) :
    s.Defiltered ↔
      Reconstructs s.geom.rows s.geom.rowBytes (s.typeBytes s.geom) (s.dataImage s.geom) (s.rawImage s.geom) := .rfl

/-- The stream of an image reconstructs to the image, whatever the row types (40_defilter.md R112). -/
theorem reconstructs_of_streamOf {s : State} {g : Geom} {ty : Nat → FilterType} {P : Nat → Nat → Byte}
    (h : s.StreamOf g ty P) : Reconstructs g.rows g.rowBytes (s.typeBytes g) (s.dataImage g) P := by
  intro r col hr hcol t ht
  obtain ⟨htype, hdata⟩ := h r hr
  obtain rfl : ty r = t := code_injective (htype.symm.trans ht)
  have hX : s.dataImage g r col = forwardFilter (ty r) P r col := hdata col hcol
  rw [hX, reconstruct_forwardFilter]

end Sys2Proof.Machine
end

section
/-!
PROOFS of the defilter family (40_defilter.md): the defilter phase of a run. Its invariant is that every byte before the
engine's position is reconstructed; a byte's step carries it one byte on, a row's steps one row, and the rows to the end of
the phase (R111).
-/
namespace Sys2Proof.Machine

variable {s u : State} {r col : Nat}

/-! ### Where IN and RAW lie (20_memory.md R68) -/

/-- RAW bytes lie in the order of their rows and columns. -/
theorem rawAddr_lt {g : Geom} {q c : Nat} (hc : c < g.rowBytes) (h : q < r ∨ q = r ∧ c < col) :
    g.rawAddr q c < g.rawAddr r col := by
  unfold Geom.rawAddr
  rcases h with hq | ⟨rfl, hc'⟩
  · have hoff : q * g.rowBytes + c < r * g.rowBytes := row_offset_lt hq hc
    omega
  · omega

/-- IN and RAW share no byte, for a command that fits and reads IN (42_commands.md R164). -/
theorem inRegion_not_raw {c : Command} {g : Geom} {n k : Nat} (hf : c.Fits g n) (hc : c ≠ .flip) (hk : k < g.inExpect) :
    ¬(g.rawBase.toNat ≤ g.inBase.toNat + k ∧ g.inBase.toNat + k < g.rawBase.toNat + g.rawBytes) := by
  intro hraw
  have hfree := inRegion_not_written hf hc (Nat.le_add_right _ k) (Nat.add_lt_add_left hk _)
  rw [(writesAt_iff c g _).mpr (.inl ⟨hc, hraw⟩)] at hfree
  cases hfree

/-- Row `r`'s filter-type byte stands at `r * L` in IN. -/
theorem ftype_offset_lt {g : Geom} (hr : r < g.rows) : r * g.lineBytes < g.inExpect :=
  row_offset_lt (c := 0) hr (by simp [Geom.lineBytes])

/-- Byte `col` of row `r` stands at `r * L + (1 + col)` in IN. -/
theorem data_offset_lt {g : Geom} (hr : r < g.rows) (hcol : col < g.rowBytes) :
    r * g.lineBytes + (1 + col) < g.inExpect :=
  row_offset_lt hr (Nat.add_lt_add_left hcol 1)

theorem dataAddr_eq (g : Geom) (r col : Nat) : g.dataAddr r col = g.inBase.toNat + (r * g.lineBytes + (1 + col)) := by
  unfold Geom.dataAddr
  omega

/-! ### A store at or after a byte's own place -/

/-- A byte is reconstructed from IN and from RAW bytes before its own, so a store to its place or past it changes nothing
for it (40_defilter.md R101). -/
theorem outByte_setBufByte_of_le (s : State) (t : FilterType) {a : Nat} (v : Byte) (hcol : col < s.geom.rowBytes)
    (hx : s.geom.dataAddr r col ≠ a) (ha : s.geom.rawAddr r col ≤ a) :
    (s.setBufByte a v).outByte t.pred r col = s.outByte t.pred r col := by
  have hX : (s.setBufByte a v).dataImage s.geom r col = s.dataImage s.geom r col := bufByte_setBufByte_ne _ _ _ _ hx
  have hpred : t.predAt ((s.setBufByte a v).rawImage s.geom) r col = t.predAt (s.rawImage s.geom) r col :=
    predAt_congr t fun q c hqc => bufByte_setBufByte_ne _ _ _ _
      (Nat.ne_of_lt (Nat.lt_of_lt_of_le (rawAddr_lt (by omega) (by omega)) ha))
  rw [outByte_eq, outByte_eq, setBufByte_geom, hX, hpred]

/-- A store past a reconstructed byte leaves it reconstructed. -/
theorem byteDefiltered_setBufByte_of_lt (s : State) {a : Nat} (v : Byte) (hcol : col < s.geom.rowBytes)
    (ht : s.geom.ftypeAddr r ≠ a) (hx : s.geom.dataAddr r col ≠ a) (ha : s.geom.rawAddr r col < a)
    (h : s.byteDefiltered r col) : (s.setBufByte a v).byteDefiltered r col := by
  intro t hcode
  have hraw : (s.setBufByte a v).bufByte (s.geom.rawAddr r col) = s.bufByte (s.geom.rawAddr r col) :=
    bufByte_setBufByte_ne _ _ _ _ (Nat.ne_of_lt ha)
  have hcode' : s.bufByte (s.geom.ftypeAddr r) = t.code := (bufByte_setBufByte_ne s _ _ v ht).symm.trans hcode
  exact hraw.trans ((h t hcode').trans (outByte_setBufByte_of_le s t v hcol hx (Nat.le_of_lt ha)).symm)

/-- A byte is reconstructed by the store of R102's byte with its row's filter. -/
theorem byteDefiltered_setBufByte_self (s : State) {f : FilterType} (hcol : col < s.geom.rowBytes)
    (ht : s.geom.ftypeAddr r ≠ s.geom.rawAddr r col) (hx : s.geom.dataAddr r col ≠ s.geom.rawAddr r col)
    (hf : s.bufByte (s.geom.ftypeAddr r) = f.code) :
    (s.setBufByte (s.geom.rawAddr r col) (s.outByte f.pred r col)).byteDefiltered r col := by
  intro t hcode
  obtain rfl : f = t := code_injective (hf.symm.trans ((bufByte_setBufByte_ne s _ _ _ ht).symm.trans hcode))
  exact (bufByte_setBufByte_self s _ _).trans (outByte_setBufByte_of_le s f _ hcol hx (Nat.le_refl _)).symm

/-! ### The invariant -/

/-- `u` is `s` with every data byte before byte `col` of row `r` reconstructed: only ES, FT and BUF have changed, and of BUF
nothing outside RAW. -/
structure State.DefilterRun (s : State) (r col : Nat) (u : State) : Prop where
  frame : u = { s with es := u.es, ft := u.ft, buf := u.buf }
  outside : ∀ a, ¬(s.geom.rawBase.toNat ≤ a ∧ a < s.geom.rawBase.toNat + s.geom.rawBytes) → u.bufByte a = s.bufByte a
  before : ∀ q c, q < s.geom.rows → c < s.geom.rowBytes → q < r ∨ q = r ∧ c < col → u.byteDefiltered q c

namespace State.DefilterRun

theorem start (s : State) : s.DefilterRun 0 0 s := ⟨rfl, fun _ _ => rfl, fun _ _ _ _ h => by omega⟩

theorem geom (h : s.DefilterRun r col u) : u.geom = s.geom := by rw [h.frame]

theorem memSize (h : s.DefilterRun r col u) : u.memSize = s.memSize := by rw [h.frame]

theorem opl (h : s.DefilterRun r col u) : u.opl = s.opl := by rw [h.frame]

theorem engineAlone (h : s.DefilterRun r col u) (hs : s.engineAlone) : u.engineAlone := by rw [h.frame]; exact hs

/-- Where the engine stands and what it has latched are no part of what is reconstructed. -/
theorem move (h : s.DefilterRun r col u) (es : EngineState) (f : FilterType) :
    s.DefilterRun r col { u with es := es, ft := f } :=
  ⟨by conv_lhs => rw [h.frame], h.outside, h.before⟩

/-- A row's last byte is followed by the next row. -/
theorem nextRow (h : s.DefilterRun r s.geom.rowBytes u) : s.DefilterRun (r + 1) 0 u :=
  ⟨h.frame, h.outside, fun q c hq hc hqc => h.before q c hq hc (by omega)⟩

section Phase

variable (hop : s.opl ≠ .flip) (hfit : s.opl.Fits s.geom s.memSize)
include hop hfit

theorem bufByte_ftypeAddr (h : s.DefilterRun r col u) {q : Nat} (hq : q < s.geom.rows) :
    u.bufByte (s.geom.ftypeAddr q) = s.bufByte (s.geom.ftypeAddr q) :=
  h.outside _ (inRegion_not_raw hfit hop (ftype_offset_lt hq))

/-- Reconstructing the next byte keeps the ones before it: they and their references lie at lower addresses of RAW, and IN
lies apart. -/
theorem store (h : s.DefilterRun r col u) (hr : r < s.geom.rows) (hcol : col < s.geom.rowBytes) {f : FilterType}
    (hf : s.bufByte (s.geom.ftypeAddr r) = f.code) :
    s.DefilterRun r (col + 1) (u.setBufByte (s.geom.rawAddr r col) (u.outByte f.pred r col)) := by
  have hraw := rawAddr_bounds hr hcol
  have notIn : ∀ {k}, k < s.geom.inExpect → s.geom.inBase.toNat + k ≠ s.geom.rawAddr r col := fun hk heq =>
    inRegion_not_raw hfit hop hk (heq ▸ hraw)
  have htype : ∀ q, q < s.geom.rows → s.geom.ftypeAddr q ≠ s.geom.rawAddr r col := fun q hq => notIn (ftype_offset_lt hq)
  have hdata : ∀ q c, q < s.geom.rows → c < s.geom.rowBytes → s.geom.dataAddr q c ≠ s.geom.rawAddr r col :=
    fun q c hq hc => dataAddr_eq s.geom q c ▸ notIn (data_offset_lt hq hc)
  have hf' := (h.bufByte_ftypeAddr hop hfit hr).trans hf
  refine ⟨?_, fun a ha => ?_, fun q c hq hc hqc => ?_⟩
  · exact congrArg (State.setBufByte _ (u.outByte f.pred r col)) h.frame
  · have hne : a ≠ s.geom.rawAddr r col := fun heq => ha (heq.symm ▸ hraw)
    rw [bufByte_setBufByte_ne _ _ _ _ hne, h.outside a ha]
  · have hgeom := h.geom
    rw [← hgeom] at hr hcol htype hdata hf' hq hc ⊢
    by_cases hlast : q = r ∧ c = col
    · obtain ⟨rfl, rfl⟩ := hlast
      exact byteDefiltered_setBufByte_self u hc (htype q hq) (hdata q c hq hc) hf'
    · have hqc' : q < r ∨ q = r ∧ c < col := by omega
      exact byteDefiltered_setBufByte_of_lt u _ hc (htype q hq) (hdata q c hq hc) (rawAddr_lt hc hqc')
        (h.before q c (hgeom ▸ hq) (hgeom ▸ hc) hqc')

variable (halone : s.engineAlone)
include halone

/-- DF_HDR(r) of a legal row, as a step of the run (40_defilter.md R108). -/
theorem step_latch (h : s.DefilterRun r 0 u) (hes : u.es = .dfHdr r) (hr : r < s.geom.rows) {f : FilterType}
    (hf : s.bufByte (s.geom.ftypeAddr r) = f.code) : step u = .next { u with ft := f, es := .dfByte r 0 } := by
  rw [step_engineAlone u (h.engineAlone halone)]
  refine engineStep_latch hes ?_ ?_ <;> rw [h.geom]
  · rw [h.memSize]
    exact lt_memSize_of_usesAt hfit (usesAt_ftypeAddr hop hr)
  · rw [h.bufByte_ftypeAddr hop hfit hr, hf]

/-- DF_BYTE(r, col), as a step of the run (40_defilter.md R102, R109). -/
theorem step_reconstruct (h : s.DefilterRun r col u) (hes : u.es = .dfByte r col) (hr : r < s.geom.rows)
    (hcol : col < s.geom.rowBytes) :
    step u = .next ((u.setBufByte (s.geom.rawAddr r col) (u.outByte u.ft.pred r col)).advanceDefilter r col) := by
  rw [step_engineAlone u (h.engineAlone halone), ← h.geom]
  refine engineStep_reconstruct hes ?_ ?_ <;> rw [h.geom, h.memSize]
  · exact lt_memSize_of_usesAt hfit (usesAt_dataAddr hop hr hcol)
  · exact lt_memSize_of_usesAt hfit (usesAt_rawAddr s.opl hr hcol)

/-- From byte `col` to the end of its row, up to where the engine goes from there. -/
theorem runSteps_bytes (n : Nat) (hn : col + n + 1 = s.geom.rowBytes) (h : s.DefilterRun r col u)
    (hes : u.es = .dfByte r col) (hr : r < s.geom.rows) (hf : s.bufByte (s.geom.ftypeAddr r) = u.ft.code) :
    ∃ w, runSteps (n + 1) u = .next (w.advanceDefilter r (s.geom.rowBytes - 1)) ∧
      s.DefilterRun r s.geom.rowBytes w := by
  induction n generalizing col u with
  | zero =>
    obtain rfl : col = s.geom.rowBytes - 1 := by omega
    have hcol : s.geom.rowBytes - 1 < s.geom.rowBytes := by omega
    have hstore := h.store hop hfit hr hcol hf
    rw [Nat.sub_add_cancel (by omega)] at hstore
    exact ⟨_, runSteps_succ_of_next 0 _ _ (h.step_reconstruct hop hfit halone hes hr hcol), hstore⟩
  | succ n ih =>
    have hcol : col < s.geom.rowBytes := by omega
    have hstore := h.store hop hfit hr hcol hf
    have hstep := h.step_reconstruct hop hfit halone hes hr hcol
    rw [advanceDefilter_nextByte _ _ _ (by rw [hstore.geom]; omega)] at hstep
    obtain ⟨w, hw, hrun⟩ := ih (by omega) (hstore.move (.dfByte r (col + 1)) u.ft) rfl hf
    exact ⟨w, (runSteps_succ_of_next (n + 1) _ _ hstep).trans hw, hrun⟩

/-- One legal row takes L steps, up to where the engine goes from its end (42_commands.md R172). -/
theorem runSteps_row (h : s.DefilterRun r 0 u) (hes : u.es = .dfHdr r) (hr : r < s.geom.rows)
    (hlegal : (s.bufByte (s.geom.ftypeAddr r)).toNat ≤ 4) :
    ∃ w, runSteps s.geom.lineBytes u = .next (w.advanceDefilter r (s.geom.rowBytes - 1)) ∧
      s.DefilterRun (r + 1) 0 w := by
  obtain ⟨f, hf⟩ := exists_code_of_le hlegal
  have hpos := (rows_pos_of_fits hfit).2
  obtain ⟨w, hw, hrun⟩ := (h.move (.dfByte r 0) f).runSteps_bytes hop hfit halone (s.geom.rowBytes - 1) (by omega) rfl hr
    hf
  have hline : s.geom.lineBytes = s.geom.rowBytes - 1 + 1 + 1 := by
    unfold Geom.lineBytes
    omega
  rw [hline]
  exact ⟨w, (runSteps_succ_of_next _ _ _ (h.step_latch hop hfit halone hes hr hf)).trans hw, hrun.nextRow⟩

/-- The legal rows before row `r` take r*L steps (42_commands.md R172). -/
theorem runSteps_rows (hes : s.es = .dfHdr 0) (hr : r < s.geom.rows)
    (hlegal : ∀ q, q < r → (s.bufByte (s.geom.ftypeAddr q)).toNat ≤ 4) :
    ∃ u, runSteps (r * s.geom.lineBytes) s = .next u ∧ u.es = .dfHdr r ∧ s.DefilterRun r 0 u := by
  induction r with
  | zero => exact ⟨s, by rw [Nat.zero_mul, runSteps_zero], hes, start s⟩
  | succ r ih =>
    obtain ⟨u, hu, hues, hrun⟩ := ih (by omega) fun q hq => hlegal q (by omega)
    obtain ⟨w, hw, hrun'⟩ := hrun.runSteps_row hop hfit halone hues (by omega) (hlegal r (Nat.lt_succ_self r))
    refine ⟨{ w with es := .dfHdr (r + 1) }, ?_, rfl, hrun'.move _ w.ft⟩
    rw [Nat.succ_mul, runSteps_add _ _ _ _ hu, hw, advanceDefilter_nextRow _ _ _ _ (by rw [hrun'.geom]; exact hr)]
    rw [hrun'.geom]
    omega

/-- The whole phase takes IN_EXPECT steps, up to where the engine goes from its end (42_commands.md R172). -/
theorem runSteps_phase (hes : s.es = .dfHdr 0) (hlegal : s.RowsLegal s.geom) :
    ∃ w, runSteps s.geom.inExpect s = .next (w.advanceDefilter (s.geom.rows - 1) (s.geom.rowBytes - 1)) ∧
      s.DefilterRun s.geom.rows 0 w := by
  have hpos := (rows_pos_of_fits hfit).1
  obtain ⟨u, hu, hues, hrun⟩ := runSteps_rows (r := s.geom.rows - 1) hop hfit halone hes (by omega) fun q hq =>
    hlegal q (by omega)
  obtain ⟨w, hw, hrun'⟩ := hrun.runSteps_row hop hfit halone hues (by omega) (hlegal _ (by omega))
  rw [Nat.sub_add_cancel hpos] at hrun'
  refine ⟨w, ?_, hrun'⟩
  have hexpect : s.geom.inExpect = (s.geom.rows - 1) * s.geom.lineBytes + s.geom.lineBytes := by
    rw [← Nat.succ_mul, Nat.succ_eq_add_one, Nat.sub_add_cancel hpos]
    rfl
  rw [hexpect, runSteps_add _ _ _ _ hu, hw]

end Phase

/-- At the end of the phase RAW is the reconstruction of IN. -/
theorem defiltered (h : s.DefilterRun s.geom.rows 0 u) : u.Defiltered := by
  intro q c hq hc
  rw [h.geom] at hq hc
  exact h.before q c hq hc (.inl hq)

end State.DefilterRun

end Sys2Proof.Machine
end

section
/-!
PROOFS of the defilter family (40_defilter.md): whole DEFILTER commands.
-/
namespace Sys2Proof.Machine

/-- Settles O54: the accepted command runs the defilter phase and completes at its end. -/
theorem defilterReconstructsImage : Obligations.DefilterReconstructsImage := by
  intro s hb halone hready hlegal
  have hfit : Command.defilter.Fits s.regGeom s.memSize := hready.2.1
  obtain ⟨hrows, hbytes⟩ := rows_pos_of_fits hfit
  obtain ⟨w, hw, hrun⟩ := State.DefilterRun.runSteps_phase (s := s.clearStatus.accept .defilter) (by simp [State.accept])
    hfit halone rfl hlegal
  have hgeom : w.geom = s.regGeom := hrun.geom
  have hopl : w.opl = .defilter := hrun.opl
  change runSteps s.regGeom.inExpect (s.clearStatus.accept .defilter) =
    .next (w.advanceDefilter (s.regGeom.rows - 1) (s.regGeom.rowBytes - 1)) at hw
  rw [advanceDefilter_complete _ _ _ (by rw [hgeom]; omega) (by rw [hgeom]; omega) (by simp [hopl])] at hw
  refine ⟨_, _, (exec_command .defilter s).trans (congrArg _ (startCommand_ready .defilter s hb hready)), hw, rfl, rfl,
    ?_, ?_, hgeom, hrun.defiltered, hrun.outside⟩
  · rw [complete_error, hrun.frame]
    rfl
  · rw [complete_errCode, hrun.frame]
    rfl

/-- Two INs that agree byte by byte hold the same stream, row by row. -/
theorem sameStream_of_bytes {s₁ s₂ : State} {g₁ g₂ : Geom} (hline : g₂.lineBytes = g₁.lineBytes)
    (hin : ∀ n, n < g₁.inExpect → s₁.bufByte (g₁.inBase.toNat + n) = s₂.bufByte (g₂.inBase.toNat + n)) :
    (∀ r, r < g₁.rows → s₁.typeBytes g₁ r = s₂.typeBytes g₂ r) ∧
      ∀ r col, r < g₁.rows → col < g₁.rowBytes → s₁.dataImage g₁ r col = s₂.dataImage g₂ r col := by
  refine ⟨fun r hr => ?_, fun r col hr hcol => ?_⟩
  · unfold State.typeBytes Geom.ftypeAddr
    rw [hline]
    exact hin _ (ftype_offset_lt hr)
  · unfold State.dataImage
    rw [dataAddr_eq, dataAddr_eq, hline]
    exact hin _ (data_offset_lt hr hcol)

/-- After DEFILTER the image in RAW is the reconstruction of the stream IN held before (40_defilter.md R111): RAW is the
reconstruction of IN as it stands then, and IN is unchanged. -/
theorem defilter_reconstructs {s : State} (hb : s.busy = false) (halone : s.engineAlone) (hready : s.ReadyFor .defilter)
    (hlegal : s.RowsLegal s.regGeom) :
    ∃ t u, exec .defilter s = .next t ∧ runSteps s.regGeom.inExpect t = .next u ∧ u.done = true ∧
      Reconstructs s.regGeom.rows s.regGeom.rowBytes (s.typeBytes s.regGeom) (s.dataImage s.regGeom)
        (u.rawImage s.regGeom) := by
  obtain ⟨t, u, ht, hu, -, hdone, -, -, hgeom, hdef, hframe⟩ := defilterReconstructsImage s hb halone hready hlegal
  refine ⟨t, u, ht, hu, hdone, fun r col hr hcol f hf => ?_⟩
  obtain ⟨htype, hdata⟩ := sameStream_of_bytes (s₁ := u) (s₂ := s) (g₁ := s.regGeom) rfl fun k hk =>
    hframe _ (inRegion_not_raw hready.2.1 (by decide) hk)
  rw [defiltered_iff, hgeom] at hdef
  rw [← hdata r col hr hcol]
  exact hdef r col hr hcol f ((htype r hr).trans hf)

/-- Settles O57: RAW and the image are both the reconstruction of the stream, and it has one. -/
theorem defilterInvertsForwardFilter : Obligations.DefilterInvertsForwardFilter := by
  intro s ty P hb halone hready hstream
  have htype : ∀ r, r < s.regGeom.rows → s.bufByte (s.regGeom.ftypeAddr r) = (ty r).code := fun r hr => (hstream r hr).1
  have hlegal : s.RowsLegal s.regGeom := fun r hr => htype r hr ▸ code_toNat_le (ty r)
  obtain ⟨t, u, ht, hu, hdone, hraw⟩ := defilter_reconstructs hb halone hready hlegal
  exact ⟨t, u, ht, hu, hdone, reconstructs_unique (fun _ _ => rfl) (fun _ _ _ _ => rfl) (fun r hr => ⟨_, htype r hr⟩) hraw
    (reconstructs_of_streamOf hstream)⟩

/-- RAW byte by byte is RAW row by row. -/
theorem exists_rawAddr_of_lt {g : Geom} {n : Nat} (hn : n < g.rawBytes) :
    ∃ r col, r < g.rows ∧ col < g.rowBytes ∧ n = r * g.rowBytes + col := by
  have hpos : 0 < g.rowBytes := Nat.pos_of_mul_pos_left (Nat.zero_lt_of_lt hn)
  exact ⟨n / g.rowBytes, n % g.rowBytes, Nat.div_lt_of_lt_mul (Nat.mul_comm _ _ ▸ hn), Nat.mod_lt _ hpos,
    (Nat.div_add_mod' n g.rowBytes).symm⟩

/-- Settles O58: both RAWs are the reconstruction of one legal stream, and it has one. -/
theorem defilterDependsOnStreamOnly : Obligations.DefilterDependsOnStreamOnly := by
  intro s₁ s₂ t₁ t₂ u₁ u₂ hb₁ ha₁ hr₁ hl₁ hb₂ ha₂ hr₂ hwidth hheight hin ht₁ hu₁ ht₂ hu₂ n hn
  have hrows : s₂.regGeom.rows = s₁.regGeom.rows := congrArg BitVec.toNat hheight.symm
  have hbytes : s₂.regGeom.rowBytes = s₁.regGeom.rowBytes := congrArg (Config.bpp * BitVec.toNat ·) hwidth.symm
  have hline : s₂.regGeom.lineBytes = s₁.regGeom.lineBytes := congrArg (1 + ·) hbytes
  have hexpect : s₂.regGeom.inExpect = s₁.regGeom.inExpect := congrArg₂ (· * ·) hrows hline
  obtain ⟨htype, hdata⟩ := sameStream_of_bytes hline hin
  have hl₂ : s₂.RowsLegal s₂.regGeom := fun r hr => by
    have hr' : r < s₁.regGeom.rows := hrows ▸ hr
    exact (congrArg BitVec.toNat (htype r hr')).symm.trans_le (hl₁ r hr')
  obtain ⟨t, u, ht, hu, -, hraw₁⟩ := defilter_reconstructs hb₁ ha₁ hr₁ hl₁
  obtain rfl := Host.Outcome.next.inj (ht.symm.trans ht₁)
  obtain rfl := Host.Outcome.next.inj (hu.symm.trans hu₁)
  obtain ⟨t', u', ht', hu', -, hraw₂⟩ := defilter_reconstructs hb₂ ha₂ hr₂ hl₂
  obtain rfl := Host.Outcome.next.inj (ht'.symm.trans ht₂)
  obtain rfl := Host.Outcome.next.inj (hu'.symm.trans (hexpect ▸ hu₂))
  rw [hrows, hbytes] at hraw₂
  obtain ⟨r, col, hr, hcol, rfl⟩ := exists_rawAddr_of_lt hn
  have hsame := reconstructs_unique htype hdata (fun r hr => exists_code_of_le (hl₁ r hr)) hraw₁ hraw₂ r col hr hcol
  unfold State.rawImage Geom.rawAddr at hsame
  rwa [hbytes, Nat.add_assoc, Nat.add_assoc] at hsame

end Sys2Proof.Machine
end

section
/-!
PROOFS of the layout family (41_layout.md): one byte of the flip, as a step.
-/
namespace Sys2Proof.Machine

/-- Settles O20: one stored byte, then R142's three ways on. -/
theorem flipStepCopiesAndAdvances : Obligations.FlipStepCopiesAndAdvances := by
  intro s i k rest hn hes h1 h2
  refine ⟨_, (step_engineNext s rest hn).trans (engineStep_copy (s := s.withInputs rest) hes h1 h2),
    ?_, fun a ha => ?_, fun hk => ?_, fun hk hi => ?_, fun hk hi => ?_⟩
  · rw [bufByte_advanceFlip]
    exact bufByte_setBufByte_self (s.withInputs rest) _ _
  · rw [bufByte_advanceFlip]
    exact bufByte_setBufByte_ne (s.withInputs rest) _ a _ ha
  · rw [advanceFlip_nextByte i k (State.setBufByte _ _ (s.withInputs rest)) hk]
    rfl
  · rw [advanceFlip_nextRow i k (State.setBufByte _ _ (s.withInputs rest)) (Nat.not_lt.mpr hk) hi]
    rfl
  · rw [advanceFlip_complete i k (State.setBufByte _ _ (s.withInputs rest)) (Nat.not_lt.mpr hk) (Nat.not_lt.mpr hi)]
    rfl

end Sys2Proof.Machine
end

section
/-!
PROOFS of the layout family (41_layout.md): the flip phase of a run, which FLIP is and CONVERT ends with. Its invariant is
that every RAW byte before the engine's position stands in its reversed row of OUT; a byte's step carries it one byte on, and
RAW_BYTES steps to the end of the phase (R141).
-/
namespace Sys2Proof.Machine

variable {s u : State} {i k : Nat}

/-! ### Where the flip reads and writes (20_memory.md R68) -/

/-- Every byte the flip writes lies in OUT. -/
theorem flipAddr_bounds {g : Geom} (hi : i < g.rows) (hk : k < g.rowBytes) :
    g.outBase.toNat ≤ g.flipAddr i k ∧ g.flipAddr i k < g.outBase.toNat + g.rawBytes := by
  rcases (writesAt_iff .flip g _).mp (writesAt_flipAddr (by decide) hi hk) with ⟨hne, -⟩ | ⟨-, hout⟩
  · exact absurd rfl hne
  · exact hout

/-- A byte of an earlier row, or an earlier byte of the same row, is copied to another place: its row of OUT is a later one,
or its byte an earlier one. -/
theorem flipAddr_ne {g : Geom} {q c : Nat} (hi : i < g.rows) (hk : k < g.rowBytes) (h : q < i ∨ q = i ∧ c < k) :
    g.flipAddr q c ≠ g.flipAddr i k := by
  unfold Geom.flipAddr Geom.outAddr
  rcases h with hq | ⟨rfl, hc⟩
  · have hoff : (g.rows - 1 - i) * g.rowBytes + k < (g.rows - 1 - q) * g.rowBytes := row_offset_lt (by omega) hk
    omega
  · omega

/-- RAW and OUT share no byte, for a command that fits and writes OUT (42_commands.md R164). -/
theorem rawAddr_not_out {c : Command} {g : Geom} {n : Nat} (hf : c.Fits g n) (hc : c ≠ .defilter) (hi : i < g.rows)
    (hk : k < g.rowBytes) :
    ¬(g.outBase.toNat ≤ g.rawAddr i k ∧ g.rawAddr i k < g.outBase.toNat + g.rawBytes) := by
  obtain ⟨-, -, -, -, -, -, hapart, -⟩ := hf
  have happart := hapart hc
  have hraw := rawAddr_bounds hi hk
  simp only [Region.Apart, Geom.rawRegion, Geom.outRegion] at happart
  omega

/-! ### The invariant -/

/-- `u` is `s` with every RAW byte before byte `k` of row `i` copied to its reversed row of OUT: only ES and BUF have changed,
and of BUF nothing outside OUT. -/
structure State.FlipRun (s : State) (i k : Nat) (u : State) : Prop where
  frame : u = { s with es := u.es, buf := u.buf }
  outside : ∀ a, ¬(s.geom.outBase.toNat ≤ a ∧ a < s.geom.outBase.toNat + s.geom.rawBytes) → u.bufByte a = s.bufByte a
  before : ∀ q c, q < s.geom.rows → c < s.geom.rowBytes → q < i ∨ q = i ∧ c < k →
    u.bufByte (s.geom.flipAddr q c) = s.bufByte (s.geom.rawAddr q c)

namespace State.FlipRun

theorem start (s : State) : s.FlipRun 0 0 s := ⟨rfl, fun _ _ => rfl, fun _ _ _ _ h => by omega⟩

theorem geom (h : s.FlipRun i k u) : u.geom = s.geom := by rw [h.frame]

theorem memSize (h : s.FlipRun i k u) : u.memSize = s.memSize := by rw [h.frame]

theorem engineAlone (h : s.FlipRun i k u) (hs : s.engineAlone) : u.engineAlone := by rw [h.frame]; exact hs

/-- Where the engine stands is no part of what is copied. -/
theorem move (h : s.FlipRun i k u) (es : EngineState) : s.FlipRun i k { u with es := es } :=
  ⟨by conv_lhs => rw [h.frame], h.outside, h.before⟩

/-- A row's last byte is followed by the next row. -/
theorem nextRow (h : s.FlipRun i s.geom.rowBytes u) : s.FlipRun (i + 1) 0 u :=
  ⟨h.frame, h.outside, fun q c hq hc hqc => h.before q c hq hc (by omega)⟩

/-- At the end of the phase OUT is RAW with its rows reversed. -/
theorem flipped (h : s.FlipRun s.geom.rows 0 u) : Flipped s.geom s u :=
  fun q c hq hc => h.before q c hq hc (.inl hq)

section Phase

variable (hop : s.opl ≠ .defilter) (hfit : s.opl.Fits s.geom s.memSize)
include hop hfit

/-- Copying the next byte keeps the copies before it, which lie elsewhere in OUT; the byte is still the one RAW held at the
start, as RAW lies apart from OUT. -/
theorem store (h : s.FlipRun i k u) (hi : i < s.geom.rows) (hk : k < s.geom.rowBytes) :
    s.FlipRun i (k + 1) (u.setBufByte (s.geom.flipAddr i k) (u.bufByte (s.geom.rawAddr i k))) := by
  refine ⟨congrArg (State.setBufByte _ (u.bufByte (s.geom.rawAddr i k))) h.frame, fun a ha => ?_,
    fun q c hq hc hqc => ?_⟩
  · have hne : a ≠ s.geom.flipAddr i k := fun heq => ha (heq.symm ▸ flipAddr_bounds hi hk)
    rw [bufByte_setBufByte_ne _ _ _ _ hne, h.outside a ha]
  · by_cases hlast : q = i ∧ c = k
    · obtain ⟨rfl, rfl⟩ := hlast
      rw [bufByte_setBufByte_self, h.outside _ (rawAddr_not_out hfit hop hi hk)]
    · have hqc' : q < i ∨ q = i ∧ c < k := by omega
      rw [bufByte_setBufByte_ne _ _ _ _ (flipAddr_ne hi hk hqc'), h.before q c hq hc hqc']

variable (halone : s.engineAlone)
include halone

/-- FL_BYTE(i, k), as a step of the run (41_layout.md R142). -/
theorem step_copy (h : s.FlipRun i k u) (hes : u.es = .flByte i k) (hi : i < s.geom.rows) (hk : k < s.geom.rowBytes) :
    step u = .next ((u.setBufByte (s.geom.flipAddr i k) (u.bufByte (s.geom.rawAddr i k))).advanceFlip i k) := by
  rw [step_engineAlone u (h.engineAlone halone), ← h.geom]
  refine engineStep_copy hes ?_ ?_ <;> rw [h.geom, h.memSize]
  · exact lt_memSize_of_usesAt hfit (usesAt_rawAddr s.opl hi hk)
  · exact lt_memSize_of_usesAt hfit (usesAt_of_writesAt (writesAt_flipAddr hop hi hk))

/-- From byte (i, k) the run completes after one step for each byte of RAW still to be copied (42_commands.md R172). -/
theorem runSteps_bytes (n : Nat) (hn : i * s.geom.rowBytes + k + n = s.geom.rawBytes) (h : s.FlipRun i k u)
    (hes : u.es = .flByte i k) (hi : i < s.geom.rows) (hk : k < s.geom.rowBytes) :
    ∃ w, runSteps n u = .next w.complete ∧ s.FlipRun s.geom.rows 0 w := by
  induction n generalizing i k u with
  | zero =>
    have hoff : i * s.geom.rowBytes + k < s.geom.rawBytes := row_offset_lt hi hk
    omega
  | succ n ih =>
    have hstore := h.store hop hfit hi hk
    have hstep := h.step_copy hop hfit halone hes hi hk
    by_cases hbyte : k + 1 < s.geom.rowBytes
    · rw [advanceFlip_nextByte _ _ _ (by rwa [hstore.geom])] at hstep
      rw [runSteps_succ_of_next n _ _ hstep]
      exact ih (by omega) (hstore.move (.flByte i (k + 1))) rfl hi hbyte
    have hend : k + 1 = s.geom.rowBytes := by omega
    have hmul : (i + 1) * s.geom.rowBytes = i * s.geom.rowBytes + s.geom.rowBytes := Nat.succ_mul _ _
    have hdone : s.FlipRun (i + 1) 0 _ := (hend ▸ hstore).nextRow
    by_cases hrow : i + 1 < s.geom.rows
    · rw [advanceFlip_nextRow _ _ _ (by rwa [hstore.geom]) (by rwa [hstore.geom])] at hstep
      rw [runSteps_succ_of_next n _ _ hstep]
      exact ih (by omega) (hdone.move (.flByte (i + 1) 0)) rfl hrow (by omega)
    · have hlast : i + 1 = s.geom.rows := by omega
      have hraw : s.geom.rawBytes = (i + 1) * s.geom.rowBytes := by rw [hlast]; rfl
      obtain rfl : n = 0 := by omega
      rw [advanceFlip_complete _ _ _ (by rwa [hstore.geom]) (by rwa [hstore.geom])] at hstep
      exact ⟨_, runSteps_succ_of_next 0 _ _ hstep, hlast ▸ hdone⟩

/-- The whole phase takes RAW_BYTES steps and completes the command (42_commands.md R170, R172). -/
theorem runSteps_phase (hes : s.es = .flByte 0 0) :
    ∃ w, runSteps s.geom.rawBytes s = .next w.complete ∧ s.FlipRun s.geom.rows 0 w := by
  obtain ⟨hrows, hbytes⟩ := rows_pos_of_fits hfit
  exact (start s).runSteps_bytes hop hfit halone _ (by omega) hes hrows hbytes

end Phase

end State.FlipRun

end Sys2Proof.Machine
end

section
/-!
PROOFS of the layout family (41_layout.md): whole FLIP commands.
-/
namespace Sys2Proof.Machine

/-- Settles O53: the accepted command runs the flip phase, which completes it. -/
theorem flipReversesRows : Obligations.FlipReversesRows := by
  intro s hb halone hready
  obtain ⟨w, hw, hrun⟩ := State.FlipRun.runSteps_phase (s := s.clearStatus.accept .flip) (by simp [State.accept])
    hready.2.1 halone rfl
  refine ⟨_, _, (exec_command .flip s).trans (congrArg _ (startCommand_ready .flip s hb hready)), hw, rfl, rfl, ?_, ?_,
    hrun.flipped, hrun.outside⟩
  · rw [complete_error, hrun.frame]
    rfl
  · rw [complete_errCode, hrun.frame]
    rfl

/-- Two rows the reversal exchanges: OUT holds in the one what RAW holds in the other (41_layout.md R141). -/
theorem Flipped.bufByte_mirror {g : Geom} {s u : State} (h : Flipped g s u) {q r col : Nat} (hqr : q + r + 1 = g.rows)
    (hcol : col < g.rowBytes) :
    u.bufByte (g.outBase.toNat + (r * g.rowBytes + col)) = s.bufByte (g.rawBase.toNat + (q * g.rowBytes + col)) := by
  have hrow := h q col (by omega) hcol
  rwa [show g.rows - 1 - q = r by omega, Nat.add_assoc, Nat.add_assoc] at hrow

/-- Settles O59: row `r` of the second OUT is row HEIGHT-1-r of the first, which is row `r` of the first RAW. -/
theorem flipTwiceIsIdentity : Obligations.FlipTwiceIsIdentity := by
  intro s₁ s₂ t₁ t₂ u₁ u₂ hb₁ ha₁ hr₁ hb₂ ha₂ hr₂ hwidth hheight ht₁ hu₁ hsame ht₂ hu₂ n hn
  have hrows : s₂.regGeom.rows = s₁.regGeom.rows := congrArg BitVec.toNat hheight.symm
  have hbytes : s₂.regGeom.rowBytes = s₁.regGeom.rowBytes := congrArg (Config.bpp * BitVec.toNat ·) hwidth.symm
  have hraw : s₂.regGeom.rawBytes = s₁.regGeom.rawBytes := congrArg₂ (· * ·) hrows hbytes
  obtain ⟨t, u, ht, hu, -, -, -, -, hflip₁, -⟩ := flipReversesRows s₁ hb₁ ha₁ hr₁
  obtain rfl := Host.Outcome.next.inj (ht₁.symm.trans ht)
  obtain rfl := Host.Outcome.next.inj (hu₁.symm.trans hu)
  obtain ⟨t', u', ht', hu', -, -, -, -, hflip₂, -⟩ := flipReversesRows s₂ hb₂ ha₂ hr₂
  obtain rfl := Host.Outcome.next.inj (ht₂.symm.trans ht')
  obtain rfl := Host.Outcome.next.inj ((hraw ▸ hu₂).symm.trans hu')
  obtain ⟨r, col, hr, hcol, rfl⟩ := exists_rawAddr_of_lt hn
  obtain ⟨q, hq⟩ : ∃ q, q + r + 1 = s₁.regGeom.rows := ⟨s₁.regGeom.rows - 1 - r, by omega⟩
  have hout₂ := hflip₂.bufByte_mirror (hq.trans hrows.symm) (hbytes.symm ▸ hcol)
  rw [hbytes] at hout₂
  calc u₂.bufByte (s₂.outBase.toNat + (r * s₁.regGeom.rowBytes + col))
    _ = s₂.bufByte (s₂.rawBase.toNat + (q * s₁.regGeom.rowBytes + col)) := hout₂
    _ = u₁.bufByte (s₁.outBase.toNat + (q * s₁.regGeom.rowBytes + col)) := hsame _ (row_offset_lt (by omega) hcol)
    _ = s₁.bufByte (s₁.rawBase.toNat + (r * s₁.regGeom.rowBytes + col)) :=
      hflip₁.bufByte_mirror (by omega) hcol

end Sys2Proof.Machine
end

section
/-!
PROOFS of the commands family (42_commands.md): a whole CONVERT, which is the defilter phase and then the flip phase. What the
flip phase writes lies apart from IN and RAW, so RAW is still the reconstruction of IN at the end.
-/
namespace Sys2Proof.Machine

variable {s u : State}

/-- Whether an image is the reconstruction of a stream depends on the bytes of both inside their sizes alone. -/
theorem reconstructs_congr {n m : Nat} {B B' : Nat → Byte} {X X' P P' : Nat → Nat → Byte}
    (hB : ∀ r, r < n → B' r = B r) (hX : ∀ r col, r < n → col < m → X' r col = X r col)
    (hP : ∀ r col, r < n → col < m → P' r col = P r col) (h : Reconstructs n m B X P) : Reconstructs n m B' X' P' := by
  intro r col hr hcol t ht
  have hpred : t.predAt P' r col = t.predAt P r col := predAt_congr t fun q c hqc => hP q c (by omega) (by omega)
  rw [hP r col hr hcol, hX r col hr hcol, hpred]
  exact h r col hr hcol t ((hB r hr).symm.trans ht)

/-- IN and OUT share no byte, for a CONVERT that fits (42_commands.md R164). -/
theorem inRegion_not_out {g : Geom} {n k : Nat} (hf : Command.convert.Fits g n) (hk : k < g.inExpect) :
    ¬(g.outBase.toNat ≤ g.inBase.toNat + k ∧ g.inBase.toNat + k < g.outBase.toNat + g.rawBytes) := by
  intro hout
  have hfree := inRegion_not_written hf (by decide) (Nat.le_add_right _ k) (Nat.add_lt_add_left hk _)
  rw [(writesAt_iff .convert g _).mpr (.inr ⟨by decide, hout⟩)] at hfree
  cases hfree

/-- CONVERT's flip phase leaves RAW the reconstruction of IN: it changes OUT alone. -/
theorem State.FlipRun.defiltered {i k : Nat} (h : s.FlipRun i k u) (hf : Command.convert.Fits s.geom s.memSize)
    (hs : s.Defiltered) : u.Defiltered := by
  rw [defiltered_iff, h.geom]
  refine reconstructs_congr (fun r hr => ?_) (fun r col hr hcol => ?_) (fun r col hr hcol => ?_) hs
  · exact h.outside _ (inRegion_not_out hf (ftype_offset_lt hr))
  · refine h.outside _ ?_
    rw [dataAddr_eq]
    exact inRegion_not_out hf (data_offset_lt hr hcol)
  · exact h.outside _ (rawAddr_not_out hf (by decide) hr hcol)

/-- At the end of the flip phase OUT is RAW as it stands then, as RAW lies apart from OUT. -/
theorem State.FlipRun.flipped_self (h : s.FlipRun s.geom.rows 0 u) {c : Command} (hc : c ≠ .defilter)
    (hf : c.Fits s.geom s.memSize) : Flipped s.geom u u := by
  intro q col hq hcol
  exact (h.flipped q col hq hcol).trans (h.outside _ (rawAddr_not_out hf hc hq hcol)).symm

/-- CONVERT's first IN_EXPECT steps defilter the image and lead to the flip phase (42_commands.md R171, R172). -/
theorem State.DefilterRun.runSteps_toFlip (hop : s.opl = .convert) (hfit : Command.convert.Fits s.geom s.memSize)
    (halone : s.engineAlone) (hes : s.es = .dfHdr 0) (hlegal : s.RowsLegal s.geom) :
    ∃ v, runSteps s.geom.inExpect s = .next v ∧ v.es = .flByte 0 0 ∧ s.DefilterRun s.geom.rows 0 v := by
  obtain ⟨hrows, hbytes⟩ := rows_pos_of_fits hfit
  obtain ⟨w, hw, hrun⟩ := runSteps_phase (by simp [hop]) (hop.symm ▸ hfit) halone hes hlegal
  rw [advanceDefilter_toFlip _ _ _ (by rw [hrun.geom]; omega) (by rw [hrun.geom]; omega) (hrun.opl.trans hop)] at hw
  exact ⟨_, hw, rfl, hrun.move (.flByte 0 0) w.ft⟩

/-- Settles O55: the accepted command runs the defilter phase, whose end starts the flip phase, which completes it. -/
theorem convertReconstructsAndFlips : Obligations.ConvertReconstructsAndFlips := by
  intro s hb halone hready hlegal
  have hfit : Command.convert.Fits s.regGeom s.memSize := hready.2.1
  obtain ⟨v, hv, hves, hdf⟩ := State.DefilterRun.runSteps_toFlip (s := s.clearStatus.accept .convert) rfl hfit halone rfl
    hlegal
  have hgeom : v.geom = s.regGeom := hdf.geom
  have hopl : v.opl = .convert := hdf.opl
  have hfit' : Command.convert.Fits v.geom v.memSize := by rw [hgeom, hdf.memSize]; exact hfit
  obtain ⟨w, hw, hfl⟩ := State.FlipRun.runSteps_phase (s := v) (by simp [hopl]) (hopl.symm ▸ hfit')
    (hdf.engineAlone halone) hves
  have hflipped := hfl.flipped_self (by decide) hfit'
  have houtside := hfl.outside
  have hrun := (runSteps_add _ v.geom.rawBytes _ _ hv).trans hw
  rw [hgeom] at hflipped houtside hrun
  refine ⟨_, w.complete, (exec_command .convert s).trans (congrArg _ (startCommand_ready .convert s hb hready)), hrun, rfl,
    rfl, ?_, ?_, hfl.geom.trans hgeom, hfl.defiltered hfit' hdf.defiltered, hflipped, fun a hraw hout => ?_⟩
  · rw [complete_error, hfl.frame, hdf.frame]
    rfl
  · rw [complete_errCode, hfl.frame, hdf.frame]
    rfl
  · exact (houtside a hout).trans (hdf.outside a hraw)

end Sys2Proof.Machine
end

section
/-!
PROOFS of the commands family (42_commands.md): a run that ends at an illegal row.
-/
namespace Sys2Proof.Machine

/-- DEFILTER and CONVERT start at the header of row 0 (42_commands.md R166). -/
theorem accept_es_of_ne_flip {c : Command} (hc : c ≠ .flip) (s : State) : (s.accept c).es = .dfHdr 0 := by
  cases c with
  | defilter => rfl
  | flip => exact absurd rfl hc
  | convert => rfl

/-- Settles O56: the legal rows take L steps each, and the next row's header raises. -/
theorem firstIllegalRowEndsTheRun : Obligations.FirstIllegalRowEndsTheRun := by
  intro s c r hc hb halone hready hr h4 hlegal
  have hfit : c.Fits s.regGeom s.memSize := hready.2.1
  obtain ⟨u, hu, hues, hrun⟩ := State.DefilterRun.runSteps_rows (s := s.clearStatus.accept c) hc hfit halone
    (accept_es_of_ne_flip hc _) hr hlegal
  have hgeom : u.geom = s.regGeom := hrun.geom
  have hopl : u.opl = c := hrun.opl
  have hbyte : u.bufByte (s.regGeom.ftypeAddr r) = s.bufByte (s.regGeom.ftypeAddr r) :=
    hrun.bufByte_ftypeAddr hc hfit hr
  have hmem : u.geom.ftypeAddr r < u.memSize := by
    rw [hgeom, hrun.memSize]
    exact lt_memSize_of_usesAt hfit (usesAt_ftypeAddr hc hr)
  have hstep := (step_engineAlone u (hrun.engineAlone halone)).trans
    (engineStep_invalid hues hmem (by rwa [hgeom, hbyte]))
  rw [hgeom, hbyte] at hstep
  refine ⟨_, _, (exec_command c s).trans (congrArg _ (startCommand_ready c s hb hready)),
    (runSteps_add _ 1 _ _ hu).trans (runSteps_succ_of_next 0 _ _ hstep), ?_, ?_, ?_, ?_, ?_, ?_, fun a ha => ?_⟩
  · rw [invalidFilterType_eq]
  · rw [invalidFilterType_eq]
  · rw [invalidFilterType_eq, hrun.frame]
    rfl
  · rw [invalidFilterType_eq]
  · rw [invalidFilterType_eq, hgeom]
  · rw [invalidFilterType_eq, BitVec.ofNat_toNat]
  · have hraw : ¬(s.rawBase.toNat ≤ a ∧ a < s.rawBase.toNat + s.regGeom.rawBytes) := fun h => by
      rw [(writesAt_iff c s.regGeom a).mpr (.inl ⟨hc, h⟩)] at ha
      cases ha
    rw [bufByte_invalidFilterType, if_neg (by simp [hopl, hgeom, ha])]
    exact hrun.outside a hraw

end Sys2Proof.Machine
end

section
/-!
PROOFS of the commands family (42_commands.md): what a command word does to an idle block. One lemma per outcome of the
checks, in the order of R160: a command's meaning is the rejection by the first check that fails, or the acceptance.
-/
namespace Sys2Proof.Machine

variable {s : State} {c : Command} {n : Nat}

/-! ### The outcomes of the checks -/

/-- An idle block clears its status and then checks (42_commands.md R160, R161). -/
theorem exec_command_idle (hb : s.busy = false) (c : Command) :
    exec c.instr s = .next (s.clearStatus.validateAndAccept c) := by
  rw [exec_command, State.startCommand, hb]
  rfl

/-- In an idle block, an error raised with status cleared changes STATUS and ERR_* alone (42_commands.md R161,
60_exceptions.md R202). -/
theorem clearStatus_raiseError (hb : s.busy = false) (code : ErrCode) (o i : Word) :
    s.clearStatus.raiseError code o i = s.rejected code o i := by
  simp only [State.raiseError, State.clearStatus, State.rejected, (busy_eq_false_iff s).mp hb]

/-- The format check comes first (42_commands.md R163). -/
theorem exec_of_formatProblem (hb : s.busy = false) (hf : s.formatProblem = some n) :
    exec c.instr s = .next (s.rejected .unsupportedFormat 0xFFFFFFFF#32 (BitVec.ofNat 32 n)) := by
  have hf' : s.clearStatus.formatProblem = some n := hf
  rw [exec_command_idle hb, State.validateAndAccept, hf']
  exact congrArg _ (clearStatus_raiseError hb ..)

/-- The geometry and region check comes second (42_commands.md R164). -/
theorem exec_of_configProblem (hb : s.busy = false) (hf : s.FormatLegal)
    (hc : c.configProblem s.regGeom s.memSize = some n) :
    exec c.instr s = .next (s.rejected .configError 0xFFFFFFFF#32 (BitVec.ofNat 32 n)) := by
  have hf' : s.clearStatus.formatProblem = none := (formatProblem_none_iff s).mpr hf
  have hc' : c.configProblem s.clearStatus.regGeom s.clearStatus.memSize = some n := hc
  rw [exec_command_idle hb, State.validateAndAccept, hf']
  simp only [hc']
  exact congrArg _ (clearStatus_raiseError hb ..)

/-- The stream-length check comes last (42_commands.md R165). -/
theorem exec_of_lengthProblem (hb : s.busy = false) (hf : s.FormatLegal)
    (hc : c.configProblem s.regGeom s.memSize = none) (hl : s.lengthProblem c = some n) :
    exec c.instr s = .next (s.rejected .sizeMismatch (BitVec.ofNat 32 n) 0#32) := by
  have hf' : s.clearStatus.formatProblem = none := (formatProblem_none_iff s).mpr hf
  have hc' : c.configProblem s.clearStatus.regGeom s.clearStatus.memSize = none := hc
  have hl' : s.clearStatus.lengthProblem c = some n := hl
  rw [exec_command_idle hb, State.validateAndAccept, hf']
  simp only [hc', hl']
  exact congrArg _ (clearStatus_raiseError hb ..)

/-- A command whose every check passes is accepted (42_commands.md R166). -/
theorem exec_of_ready (hb : s.busy = false) (h : s.ReadyFor c) :
    exec c.instr s = .next (s.accepted c (s.accept c).es) := by
  rw [exec_command, startCommand_ready c s hb h]
  rfl

/-! ### The sub-checks of R164 -/

theorem usesIn_iff (c : Command) : c.usesIn = true ↔ c = .defilter ∨ c = .convert := by cases c <;> decide

theorem usesOut_iff (c : Command) : c.usesOut = true ↔ c = .flip ∨ c = .convert := by cases c <;> decide

theorem usesIn_and_usesOut_iff (c : Command) : (c.usesIn && c.usesOut) = true ↔ c = .convert := by cases c <;> decide

theorem find?_cons_decide {α : Type} (p : α → Prop) [DecidablePred p] (a : α) (l : List α) :
    (a :: l).find? (fun x => decide (p x)) = if p a then some a else l.find? (fun x => decide (p x)) := by
  by_cases h : p a <;> simp [h]

/-- The geometry and region check finds the first sub-check of R164's table that fails, row by row. -/
theorem configProblem_eq_find? (s : State) (c : Command) [DecidablePred (s.subCheckFails c)] :
    c.configProblem s.regGeom s.memSize = (List.range' 1 8).find? (fun n => decide (s.subCheckFails c n)) := by
  rw [show List.range' 1 8 = [1, 2, 3, 4, 5, 6, 7, 8] from rfl]
  simp only [find?_cons_decide, List.find?_nil]
  refine if_congr .rfl rfl <| if_congr .rfl rfl <| if_congr ?_ rfl <| if_congr ?_ rfl <| if_congr ?_ rfl <|
    if_congr ?_ rfl <| if_congr ?_ rfl <| if_congr ?_ rfl rfl
  · rw [Bool.and_eq_true, usesIn_iff, leaves_iff]; exact .rfl
  · rw [leaves_iff]; exact .rfl
  · rw [Bool.and_eq_true, usesOut_iff, leaves_iff]; exact .rfl
  · rw [Bool.and_eq_true, usesIn_iff, overlaps_iff]; exact .rfl
  · rw [Bool.and_eq_true, usesOut_iff, overlaps_iff]; exact .rfl
  · rw [Bool.and_eq_true, usesIn_and_usesOut_iff, overlaps_iff]; exact .rfl

/-- The first failing sub-check is the number the check reports. -/
theorem configProblem_eq_some (h1 : 1 ≤ n) (h8 : n ≤ 8) (hn : s.subCheckFails c n)
    (hfirst : ∀ m, 1 ≤ m → m < n → ¬s.subCheckFails c m) : c.configProblem s.regGeom s.memSize = some n := by
  classical
  rw [configProblem_eq_find?, List.find?_range'_eq_some]
  refine ⟨decide_eq_true hn, List.mem_range'_1.mpr ⟨h1, by omega⟩, fun m hm hlt => ?_⟩
  simp [hfirst m hm hlt]

theorem configProblem_eq_none (h : ∀ m, ¬s.subCheckFails c m) : c.configProblem s.regGeom s.memSize = none := by
  classical
  rw [configProblem_eq_find?, List.find?_eq_none]
  intro m _
  simp [h m]

/-- The length check reports the smaller length (42_commands.md R165). -/
theorem lengthProblem_eq_some (hc : c ≠ .flip) (h : s.inLen.toNat ≠ s.regGeom.inExpect) :
    s.lengthProblem c = some (min s.inLen.toNat s.regGeom.inExpect) := by
  have huses : c.usesIn = true := by
    cases c with
    | defilter | convert => rfl
    | flip => exact absurd rfl hc
  simp [State.lengthProblem, huses, h]

/-! ### An illegal word -/

/-- An illegal word written to CMD raises, unless the block is busy (42_commands.md R160, R162). -/
theorem writePort_illegal {w : Word} (s : State) (hw : decode (.cmd w) = .error (.illegalCommand w)) :
    writePort 1#6 w s = .next (s.illegalCommand w) := by
  simp only [writePort, (regAt_cmd_iff 1#6).mpr rfl, writeCommand, hw]

theorem illegalCommand_idle (hb : s.busy = false) (w : Word) :
    s.illegalCommand w = s.rejected .illegalCommand 0xFFFFFFFF#32 w := by
  rw [State.illegalCommand, hb]
  exact clearStatus_raiseError hb ..

/-! ### The obligations -/

/-- Settles O21: NOP's meaning is the state itself. -/
theorem nopChangesNothing : Obligations.NopChangesNothing := ⟨rfl, fun _ => rfl⟩

/-- Settles O22: each command is accepted at the ES that `accept` gives it. -/
theorem readyCommandsAreAccepted : Obligations.ReadyCommandsAreAccepted := fun _ hb =>
  ⟨fun h => ⟨_, exec_of_ready hb h, rfl, rfl, rfl⟩, fun h => ⟨_, exec_of_ready hb h, rfl, rfl, rfl⟩,
    fun h => ⟨_, exec_of_ready hb h, rfl, rfl, rfl⟩⟩

/-- Settles O23: with the fields before it legal, an illegal field is the one the check reports. -/
theorem formatCheckReportsFirstField : Obligations.FormatCheckReportsFirstField := by
  intro s c hb
  refine ⟨fun h1 => ?_, fun h1 h2 => ?_, fun h1 h2 h3 => ?_, fun h1 h2 h3 h4 => ?_, fun h1 h2 h3 h4 h5 => ?_⟩
  · exact exec_of_formatProblem hb (by simp [State.formatProblem, h1])
  · exact exec_of_formatProblem hb (by simp [State.formatProblem, h1, h2])
  · exact exec_of_formatProblem hb (by simp [State.formatProblem, h1, h2, h3])
  · exact exec_of_formatProblem hb (by simp [State.formatProblem, h1, h2, h3, h4])
  · exact exec_of_formatProblem hb (by simp [State.formatProblem, h1, h2, h3, h4, h5])

/-- Settles O24: the check reports the first sub-check that fails. -/
theorem regionCheckReportsFirstSubCheck : Obligations.RegionCheckReportsFirstSubCheck :=
  fun _ _ _ hb hf h1 h8 hn hfirst => exec_of_configProblem hb hf (configProblem_eq_some h1 h8 hn hfirst)

/-- Settles O25: with no failing sub-check the length decides, and FLIP has no length to check. -/
theorem lengthCheckReportsMismatch : Obligations.LengthCheckReportsMismatch := by
  refine fun s hb hf => ⟨fun c hc hsub hlen => ?_, fun hsub => ?_⟩
  · exact exec_of_lengthProblem hb hf (configProblem_eq_none hsub) (lengthProblem_eq_some hc hlen)
  · exact exec_of_ready hb
      ⟨hf, (configProblem_none_iff _ _ _).mp (configProblem_eq_none hsub), fun h => absurd rfl h⟩

/-- Settles O26: the word is refused by the decoder, and the write to CMD raises. -/
theorem illegalWordRaisesIllegalCommand : Obligations.IllegalWordRaisesIllegalCommand := by
  intro s w rest hb hn hw
  have hwrite := writePort_illegal (s.withInputs rest).clearResponse (decode_cmd_of_fields hw)
  rw [illegalCommand_idle (s := (s.withInputs rest).clearResponse) hb] at hwrite
  exact (step_hostNext s _ rest hn).trans hwrite

end Sys2Proof.Machine
end

section
/-!
PROOFS of the commands family (42_commands.md): how a run begins and how it ends. ES alone says whether a command runs, so
both are read off what a step can make of ES.
-/
namespace Sys2Proof.Machine

variable {s t : State}

/-! ### How a run ends -/

/-- R109's advance reaches IDLE by completion alone. -/
theorem advanceDefilter_done_of_idle {r col : Nat} (h : (s.advanceDefilter r col).es = .idle) :
    (s.advanceDefilter r col).done = true := by
  unfold State.advanceDefilter at h ⊢
  split_ifs at h ⊢
  rfl

/-- R142's advance reaches IDLE by completion alone. -/
theorem advanceFlip_done_of_idle {i k : Nat} (h : (s.advanceFlip i k).es = .idle) :
    (s.advanceFlip i k).done = true := by
  unfold State.advanceFlip at h ⊢
  split_ifs at h ⊢
  rfl

/-- An engine step that ends the command completes it or raises InvalidFilterType (42_commands.md R170, R174). -/
theorem engineStep_ends (h : engineStep s = .next t) (hs : s.es ≠ .idle) (ht : t.es = .idle) :
    (t.done = true ∧ t.errCode = s.errCode) ∨ (t.error = true ∧ t.errCode = .invalidFilterType) := by
  rcases engineStep_cases s t h with ⟨hes, -⟩ | ⟨r, f, -, -, -, rfl⟩ | ⟨r, -, -, -, rfl⟩ | ⟨r, col, -, -, -, rfl⟩ |
    ⟨i, k, -, -, -, rfl⟩
  · exact absurd hes hs
  · cases ht
  · rw [invalidFilterType_eq]
    exact .inr ⟨rfl, rfl⟩
  · exact .inl ⟨advanceDefilter_done_of_idle ht, by rw [advanceDefilter_eq]; rfl⟩
  · exact .inl ⟨advanceFlip_done_of_idle ht, by rw [advanceFlip_eq]; rfl⟩

/-- No host access ends a running command (10_state.md R47). -/
theorem hostAccess_busy {op : HostOp} (hb : s.busy = true) (h : hostAccess op s = .next t) : t.busy = true := by
  rw [hostAccess_busy_frame hb h]
  exact hb

/-- Settles O48: of the moves a step can be, only the engine's and the assertion of reset can take ES to IDLE. -/
theorem runEndsOnlyThreeWays : Obligations.RunEndsOnlyThreeWays := by
  intro s t h hb hnb
  rcases step_cases s t h with ⟨rest, hn, he⟩ | ⟨op, rest, -, ha⟩ | ⟨-, rest, rfl | rfl⟩ | ⟨rest, hi, -⟩ | ⟨rest, -, rfl⟩
  · rcases engineStep_ends he ((busy_eq_true_iff s).mp hb) ((busy_eq_false_iff t).mp hnb) with hend | hend
    · exact .inl ⟨rest, hn, hend⟩
    · exact .inr (.inl ⟨rest, hn, hend⟩)
  · have hbusy := hostAccess_busy (s := (s.withInputs rest).clearResponse) hb ha
    rw [hbusy] at hnb
    cases hnb
  · exact absurd (hb.symm.trans hnb) (by decide)
  · exact absurd (hb.symm.trans hnb) (by decide)
  · exact .inr (.inr ⟨rest, hi⟩)
  · exact absurd (hb.symm.trans hnb) (by decide)

/-! ### How a run begins -/

/-- No register write but one to CMD changes ES. -/
theorem busy_writeReg (r : Reg) (v : Word) (s : State) : (s.writeReg r v).busy = s.busy := by
  refine busy_congr s _ ?_
  rcases writeReg_cases r v s with he | he | he | ⟨-, he⟩ <;> rw [he] <;> rfl

/-- A command word that starts the engine is of a command whose every check passes (42_commands.md R160, R166). -/
theorem startCommand_begins {c : Command} (hb : s.busy = false) (h : (s.startCommand c).busy = true) :
    s.ReadyFor c ∧ (s.startCommand c).opl = c := by
  rcases startCommand_cases c s with ⟨hb', -⟩ | ⟨-, code, o, i, -, he⟩ | ⟨-, h1, h2, h3, he⟩
  · rw [hb] at hb'
    cases hb'
  · rw [he] at h
    cases h
  · rw [he]
    exact ⟨(ready_iff s c).mpr ⟨h1, h2, h3⟩, rfl⟩

/-- An illegal word leaves an idle block idle (42_commands.md R162). -/
theorem illegalCommand_busy (hb : s.busy = false) (w : Word) : (s.illegalCommand w).busy = false := by
  rw [State.illegalCommand, hb]
  rfl

/-- A host access that starts a command is the CMD write of a ready command's word. -/
theorem hostAccess_begins {op : HostOp} (h : hostAccess op s = .next t) (hb : s.busy = false) (ht : t.busy = true) :
    ∃ (c : Command) (w : Word), op = .regWrite 1#6 w ∧ encode c.instr = .cmd w ∧ s.ReadyFor c ∧ t.opl = c := by
  have still : t.busy = s.busy → False := fun he => by simp [he, hb] at ht
  rcases hostAccess_cases op s t h with
    ⟨i, -, rfl⟩ | ⟨i, v, rfl, hw⟩ | ⟨a, d, -, -, rfl⟩ | ⟨a, v, -, -, ⟨-, rfl⟩ | ⟨-, rfl⟩⟩ | ⟨-, rfl⟩
  · exact (still (by rw [hostRegRead_eq]; rfl)).elim
  · rcases writePort_cases i v s t hw with ⟨r, -, -, rfl⟩ | rfl | ⟨c, hr, hd, rfl⟩ | ⟨-, rfl⟩
    · exact (still (busy_writeReg r v s)).elim
    · exact (still rfl).elim
    · obtain rfl := (regAt_cmd_iff i).mp hr
      exact ⟨c, v, rfl, (decode_eq_ok_iff _ _).mp hd, startCommand_begins hb ht⟩
    · exact (still ((illegalCommand_busy hb v).trans hb.symm)).elim
  · exact (still rfl).elim
  · exact (still rfl).elim
  · exact (still rfl).elim
  · exact (still rfl).elim

/-- Settles O49: of the moves a step can be, only a host access can take ES out of IDLE; the engine takes no step there. -/
theorem busyBeginsOnlyByAcceptedCommand : Obligations.BusyBeginsOnlyByAcceptedCommand := by
  intro s t h hb ht
  rcases step_cases s t h with ⟨rest, -, he⟩ | ⟨op, rest, hn, ha⟩ | ⟨-, rest, rfl | rfl⟩ | ⟨rest, -, rfl⟩ | ⟨rest, -, rfl⟩
  · obtain rfl := Host.Outcome.next.inj ((engineStep_idle (s := s.withInputs rest) ((busy_eq_false_iff s).mp hb)).symm.trans he)
    exact absurd (hb.symm.trans ht) (by decide)
  · obtain ⟨c, w, rfl, hw, hready, hopl⟩ := hostAccess_begins (s := (s.withInputs rest).clearResponse) ha hb ht
    exact ⟨c, w, rest, hn, hw, hready, hopl⟩
  · exact absurd (hb.symm.trans ht) (by decide)
  · exact absurd (hb.symm.trans ht) (by decide)
  · cases ht
  · exact absurd (hb.symm.trans ht) (by decide)

end Sys2Proof.Machine
end

section
/-!
PROOFS of the commands family (42_commands.md): progress. The steps left, position by position, and that each engine step
takes one of them.
-/
namespace Sys2Proof.Machine

variable {s t : State}

/-! ### The steps left, position by position (42_commands.md R172) -/

/-- The steps of CONVERT's flip phase that follow the defilter phase. -/
def State.flipTail (s : State) : Nat := if s.opl = .convert then s.geom.rawBytes else 0

theorem stepsLeft_idle (h : s.es = .idle) : s.stepsLeft = 0 := by simp only [State.stepsLeft, h]

theorem stepsLeft_dfHdr {r : Nat} (h : s.es = .dfHdr r) :
    s.stepsLeft = (s.geom.rows - r) * s.geom.lineBytes + s.flipTail := by
  simp only [State.stepsLeft, State.flipTail, h]

theorem stepsLeft_dfByte {r col : Nat} (h : s.es = .dfByte r col) :
    s.stepsLeft = (s.geom.rows - r) * s.geom.lineBytes - (1 + col) + s.flipTail := by
  simp only [State.stepsLeft, State.flipTail, h]

theorem stepsLeft_flByte {i k : Nat} (h : s.es = .flByte i k) :
    s.stepsLeft = (s.geom.rows - i) * s.geom.rowBytes - k := by
  simp only [State.stepsLeft, h]

theorem lineBytes_eq (g : Geom) : g.lineBytes = 1 + g.rowBytes := rfl

/-- The rows from row `r` on are row `r` and the rows after it. -/
theorem rows_sub_mul {n r : Nat} (h : r < n) (m : Nat) : (n - r) * m = (n - (r + 1)) * m + m := by
  rw [← Nat.succ_mul]
  congr 1
  omega

/-- A run is over exactly when no step is left: inside its counters' ranges the engine always has a byte to go. -/
theorem busy_eq_false_iff_stepsLeft (h : s.Inv) : s.busy = false ↔ s.stepsLeft = 0 := by
  rw [busy_eq_false_iff]
  cases hes : s.es with
  | idle => simp [stepsLeft_idle hes]
  | dfHdr r =>
    obtain ⟨hr, -⟩ := position_dfHdr h hes
    have hrows := rows_sub_mul hr s.geom.lineBytes
    have hline := lineBytes_eq s.geom
    simp only [stepsLeft_dfHdr hes, reduceCtorEq, false_iff]
    omega
  | dfByte r col =>
    obtain ⟨hr, hcol, -⟩ := position_dfByte h hes
    have hrows := rows_sub_mul hr s.geom.lineBytes
    have hline := lineBytes_eq s.geom
    simp only [stepsLeft_dfByte hes, reduceCtorEq, false_iff]
    omega
  | flByte i k =>
    obtain ⟨hi, hk, -⟩ := position_flByte h hes
    have hrows := rows_sub_mul hi s.geom.rowBytes
    simp only [stepsLeft_flByte hes, reduceCtorEq, false_iff]
    omega

/-! ### Each engine step takes one -/

/-- R109's advance takes one step: inside the row, to the next row, to CONVERT's flip phase, or to IDLE. -/
theorem stepsLeft_advanceDefilter {r col : Nat} (hr : r < s.geom.rows) (hcol : col < s.geom.rowBytes) :
    (s.advanceDefilter r col).stepsLeft + 1 = (s.geom.rows - r) * s.geom.lineBytes - (1 + col) + s.flipTail := by
  have hrows := rows_sub_mul hr s.geom.lineBytes
  have hline := lineBytes_eq s.geom
  have htail : ∀ es, { s with es := es }.flipTail = s.flipTail := fun _ => rfl
  by_cases h1 : col + 1 < s.geom.rowBytes
  · rw [advanceDefilter_nextByte r col s h1, stepsLeft_dfByte rfl, htail]
    dsimp only
    omega
  by_cases h2 : r + 1 < s.geom.rows
  · rw [advanceDefilter_nextRow r col s h1 h2, stepsLeft_dfHdr rfl, htail]
    dsimp only
    omega
  have hlast : s.geom.rows - (r + 1) = 0 := by omega
  rw [hlast, Nat.zero_mul] at hrows
  by_cases h3 : s.opl = .convert
  · have hraw : s.flipTail = s.geom.rows * s.geom.rowBytes := if_pos h3
    rw [advanceDefilter_toFlip r col s h1 h2 h3, stepsLeft_flByte rfl]
    simp only [Nat.sub_zero]
    omega
  · have hzero : s.flipTail = 0 := if_neg h3
    rw [advanceDefilter_complete r col s h1 h2 h3, stepsLeft_idle rfl]
    omega

/-- R142's advance takes one step: inside the row, to the next row, or to IDLE. -/
theorem stepsLeft_advanceFlip {i k : Nat} (hi : i < s.geom.rows) (hk : k < s.geom.rowBytes) :
    (s.advanceFlip i k).stepsLeft + 1 = (s.geom.rows - i) * s.geom.rowBytes - k := by
  have hrows := rows_sub_mul hi s.geom.rowBytes
  by_cases h1 : k + 1 < s.geom.rowBytes
  · rw [advanceFlip_nextByte i k s h1, stepsLeft_flByte rfl]
    dsimp only
    omega
  by_cases h2 : i + 1 < s.geom.rows
  · rw [advanceFlip_nextRow i k s h1 h2, stepsLeft_flByte rfl]
    dsimp only
    omega
  have hlast : s.geom.rows - (i + 1) = 0 := by omega
  rw [hlast, Nat.zero_mul] at hrows
  rw [advanceFlip_complete i k s h1 h2, stepsLeft_idle rfl]
  omega

/-- An engine step of a running command takes one of the steps left, or is InvalidFilterType. -/
theorem engineStep_stepsLeft (h : s.Inv) (hs : s.es ≠ .idle) (ht : engineStep s = .next t) :
    t.stepsLeft + 1 = s.stepsLeft ∨ (t.busy = false ∧ t.error = true ∧ t.errCode = .invalidFilterType) := by
  rcases engineStep_cases s t ht with ⟨hes, -⟩ | ⟨r, f, hes, -, -, rfl⟩ | ⟨r, hes, -, -, rfl⟩ |
    ⟨r, col, hes, -, -, rfl⟩ | ⟨i, k, hes, -, -, rfl⟩
  · exact absurd hes hs
  · obtain ⟨hr, -⟩ := position_dfHdr h hes
    have hrows := rows_sub_mul hr s.geom.lineBytes
    have hline := lineBytes_eq s.geom
    have htail : { s with ft := f, es := .dfByte r 0 }.flipTail = s.flipTail := rfl
    refine .inl ?_
    rw [stepsLeft_dfByte rfl, stepsLeft_dfHdr hes, htail]
    dsimp only
    omega
  · rw [invalidFilterType_eq]
    exact .inr ⟨rfl, rfl, rfl⟩
  · obtain ⟨hr, hcol, -⟩ := position_dfByte h hes
    exact .inl ((stepsLeft_advanceDefilter (s := s.setBufByte _ _) hr hcol).trans (stepsLeft_dfByte hes).symm)
  · obtain ⟨hi, hk, -⟩ := position_flByte h hes
    exact .inl ((stepsLeft_advanceFlip (s := s.setBufByte _ _) hi hk).trans (stepsLeft_flByte hes).symm)

/-- Settles O51: an engine step takes one of the steps left, and the invariant it keeps says that the run is over when none
is left. -/
theorem engineStepsCountDown : Obligations.EngineStepsCountDown := by
  intro s rest h hb hn
  have h' : (s.withInputs rest).Inv := h
  obtain ⟨t, ht⟩ := engineStep_total h'
  refine ⟨t, (step_engineNext s rest hn).trans ht, ?_⟩
  rcases engineStep_stepsLeft h' ((busy_eq_true_iff s).mp hb) ht with hcount | hend
  · exact .inl ⟨hcount, busy_eq_false_iff_stepsLeft (inv_engineStep h' ht)⟩
  · exact .inr hend

end Sys2Proof.Machine
end

section
/-!
PROOFS of the exceptions family (60_exceptions.md): what an error leaves of BUF, and the interrupt. Of the errors only
InvalidFilterType touches BUF, in the write regions; the others are raised by a register write, and none reaches BUF.
-/
namespace Sys2Proof.Machine

variable {s t : State}

/-! ### BUF after an error (60_exceptions.md R203) -/

/-- The write regions of a command that reads a row header: RAW, and for CONVERT also OUT (20_memory.md R68). -/
theorem writesAt_iff_of_ne_flip {c : Command} (hc : c ≠ .flip) (g : Geom) (a : Nat) :
    c.writesAt g a = true ↔
      (g.rawBase.toNat ≤ a ∧ a < g.rawBase.toNat + g.rawBytes) ∨
      (c = .convert ∧ g.outBase.toNat ≤ a ∧ a < g.outBase.toNat + g.rawBytes) := by
  rw [writesAt_iff]
  cases c
  case flip => exact absurd rfl hc
  all_goals simp

/-- Whether a command word is dropped, rejected or accepted, BUF's bytes stay. -/
theorem bufByte_startCommand (c : Command) (s : State) (a : Nat) : (s.startCommand c).bufByte a = s.bufByte a := by
  rcases startCommand_cases c s with ⟨-, he⟩ | ⟨-, code, o, i, -, he⟩ | ⟨-, -, -, -, he⟩ <;> rw [he] <;> rfl

theorem bufByte_illegalCommand (w : Word) (s : State) (a : Nat) : (s.illegalCommand w).bufByte a = s.bufByte a := by
  unfold State.illegalCommand
  split <;> rfl

theorem bufByte_writeReg (r : Reg) (v : Word) (s : State) (a : Nat) : (s.writeReg r v).bufByte a = s.bufByte a := by
  rcases writeReg_cases r v s with he | he | he | ⟨-, he⟩ <;> rw [he] <;> rfl

/-- No write at the register port changes a byte of BUF, CMD included. -/
theorem bufByte_writePort {i : RegIndex} {v : Word} (h : writePort i v s = .next t) (a : Nat) :
    t.bufByte a = s.bufByte a := by
  rcases writePort_cases i v s t h with ⟨r, -, -, rfl⟩ | rfl | ⟨c, -, -, rfl⟩ | ⟨-, rfl⟩
  · exact bufByte_writeReg r v s a
  · rfl
  · exact bufByte_startCommand c s a
  · exact bufByte_illegalCommand v s a

/-- Settles O18: the step is InvalidFilterType's, whose draws are the bytes of `Command.writesAt`; a command word is a
register write. -/
theorem errorDrawsWriteRegionsOnly : Obligations.ErrorDrawsWriteRegionsOnly := by
  refine ⟨fun s r rest hn hes ha h4 hop => ?_, fun s t w rest hn ht a => ?_⟩
  · refine ⟨_, (step_engineNext s rest hn).trans (engineStep_invalid (s := s.withInputs rest) hes ha h4), fun a => ?_⟩
    have hw := writesAt_iff_of_ne_flip hop s.geom a
    rw [bufByte_invalidFilterType]
    refine ⟨fun hlt hin => if_pos ⟨hw.mpr hin, hlt⟩, fun hraw hout => if_neg fun hin => ?_⟩
    exact (hw.mp hin.1).elim hraw hout
  · have hw : writePort 1#6 w (s.withInputs rest).clearResponse = .next t := (step_hostNext s _ rest hn).symm.trans ht
    exact bufByte_writePort hw a

/-! ### The interrupt (60_exceptions.md R210) -/

theorem irq_iff (s : State) :
    s.irq = true ↔ (s.done = true ∧ s.doneIE = true) ∨ (s.error = true ∧ s.errIE = true) := by
  simp only [State.irq, Bool.or_eq_true, Bool.and_eq_true]

/-- With both status bits clear the level is low, whatever is enabled. -/
theorem irq_of_status_clear (hd : s.done = false) (he : s.error = false) : s.irq = false := by
  simp only [State.irq, hd, he, Bool.false_and, Bool.or_false]

/-- With both enables clear the level is low, whatever the status. -/
theorem irq_of_enables_clear (hd : s.doneIE = false) (he : s.errIE = false) : s.irq = false := by
  simp only [State.irq, hd, he, Bool.and_false, Bool.or_false]

/-- Bit 8 of STATUS is the interrupt level (10_state.md R29). -/
theorem getLsbD_statusWord_irq (s : State) : s.statusWord.getLsbD 8 = s.irq := by
  rw [getLsbD_statusWord, testBit_phase s (by decide)]
  simp

/-- INT_EN reads back what was written, its reserved bits 0 (10_state.md R34). -/
theorem intEnWord_setIntEn (v : Word) (s : State) : (s.setIntEn v).intEnWord = v &&& 3#32 := by
  refine BitVec.eq_of_getLsbD_eq fun i hi => ?_
  have h3 : (3#32).getLsbD i = decide (i < 2) := by
    rw [BitVec.getLsbD_ofNat, show 3 = 2 ^ 2 - 1 from rfl, Nat.testBit_two_pow_sub_one, decide_eq_true hi, Bool.true_and]
  rw [State.intEnWord, BitVec.getLsbD_or, getLsbD_bitAt, getLsbD_bitAt, BitVec.getLsbD_and, h3]
  match i with
  | 0 => simp
  | 1 => simp
  | n + 2 => simp

/-- Settles O29: the level is read off DONE, ERROR and their enables, which the STATUS write, the INT_EN write, an accepted
and a rejected command each set. -/
theorem interruptFollowsStatusAndEnables : Obligations.InterruptFollowsStatusAndEnables := by
  intro s
  refine ⟨irq_iff s, ?_, fun v rest h => ⟨_, step_regWrite (r := .intEn) (by decide) h, rfl, ?_⟩, ?_, ?_,
    fun c es => irq_of_status_clear rfl rfl, fun code o i => ?_⟩
  · exact (congrArg (·.getLsbD 8) (readPort_index s .status)).trans (getLsbD_statusWord_irq s)
  · exact (readPort_index _ .intEn).trans (intEnWord_setIntEn v _)
  · exact irq_of_status_clear (Bool.and_false _) (Bool.and_false _)
  · exact irq_of_enables_clear rfl rfl
  · simp only [State.irq, State.rejected, Bool.false_and, Bool.true_and, Bool.false_or]

end Sys2Proof.Machine
end

section
/-!
PROOFS of the reset and hazards family (70_reset_and_hazards.md): a step by the entry of the schedule it takes, the reset
input, what opens and ends the ownership window, and what the window refuses.
-/
namespace Sys2Proof.Machine

variable {s t : State}

/-! ### A step by the entry it takes (10_state.md R21) -/

theorem step_of_nil (h : s.inputs = []) : step s = engineTurn s := by
  simp only [step, runInput, h]

theorem step_of_engine {rest : List Input} (h : s.inputs = .engine :: rest) : step s = engineTurn (s.withInputs rest) := by
  simp only [step, runInput, h]

theorem step_of_host {op : HostOp} {rest : List Input} (h : s.inputs = .host op :: rest) :
    step s = hostTurn op (s.withInputs rest) := by
  simp only [step, runInput, h]

theorem step_of_resetAssert {rest : List Input} (h : s.inputs = .resetAssert :: rest) :
    step s = .next (s.withInputs rest).assertReset := by
  simp only [step, runInput, h]

theorem step_of_resetRelease {rest : List Input} (h : s.inputs = .resetRelease :: rest) :
    step s = .next (s.withInputs rest).releaseReset := by
  simp only [step, runInput, h]

/-! ### The reset input (70_reset_and_hazards.md R230) -/

/-- While reset is asserted the engine's turn passes without effect. -/
theorem engineTurn_inReset (hr : s.inReset = true) : engineTurn s = .next s := if_pos hr

/-- While reset is asserted a host access is used up: it leaves no more than that the last access's data is gone. -/
theorem hostTurn_inReset (op : HostOp) (hr : s.inReset = true) : hostTurn op s = .next s.clearResponse := if_pos hr

/-- Every register of an asserted block reads its reset value: the two states differ in what no register read sees. -/
theorem readPort_assertReset (s : State) (i : RegIndex) : s.assertReset.readPort i = State.reset.readPort i :=
  registerReadsHideTheEngine State.reset s.assertReset i rfl rfl

/-- Every byte of an asserted block's BUF is the draw of the next unused number (70_reset_and_hazards.md R236). -/
theorem bufByte_assertReset (s : State) (a : Nat) : s.assertReset.bufByte a = Config.draw s.draws a := rfl

/-- Settles O42: assertion is one update from any state, and while it lasts each turn passes without effect. -/
theorem resetInputResetsAndHolds : Obligations.ResetInputResetsAndHolds := by
  intro s rest
  refine ⟨fun hi => ⟨_, step_of_resetAssert hi, rfl, rfl, readPort_assertReset _, bufByte_assertReset _, rfl, rfl, rfl, rfl⟩,
    fun hr => ⟨fun op hi => ?_, fun hi => ?_, fun hi => ?_, step_of_resetRelease⟩⟩
  · exact (step_of_host hi).trans (hostTurn_inReset (s := s.withInputs rest) op hr)
  · exact (step_of_engine hi).trans (engineTurn_inReset (s := s.withInputs rest) hr)
  · exact (step_of_nil hi).trans (engineTurn_inReset hr)

/-! ### What changes the window (70_reset_and_hazards.md R232) -/

/-- An engine step neither opens nor ends a window. -/
theorem engineStep_window (h : engineStep s = .next t) : t.window = s.window := by
  rw [engineStep_frame h]

/-- Of the register writes only CMD's reaches the window. -/
theorem writeReg_window (r : Reg) (v : Word) (s : State) : (s.writeReg r v).window = s.window := by
  rcases writeReg_cases r v s with he | he | he | ⟨-, he⟩ <;> rw [he] <;> rfl

/-- An illegal word leaves the window, busy or not (42_commands.md R160, R162). -/
theorem illegalCommand_window (w : Word) (s : State) : (s.illegalCommand w).window = s.window := by
  unfold State.illegalCommand
  split <;> rfl

/-- A command word opens its window exactly where it is accepted; dropped or rejected, it leaves the open one. -/
theorem startCommand_window (c : Command) (s : State) :
    (s.startCommand c).window = s.window ∨
      (s.busy = false ∧ (s.startCommand c).busy = true ∧
        (s.startCommand c).window = some { cmd := (s.startCommand c).opl, geom := (s.startCommand c).geom }) := by
  rcases startCommand_cases c s with ⟨-, he⟩ | ⟨-, code, o, i, -, he⟩ | ⟨hb, -, -, -, he⟩
  · exact .inl (by rw [he])
  · exact .inl (by rw [he]; rfl)
  · refine .inr ⟨hb, ?_⟩
    rw [he]
    exact ⟨by cases c <;> rfl, rfl⟩

/-- A host access keeps the window, opens an accepted command's, or is the STATUS read with BUSY = 0, which ends it. -/
theorem hostAccess_window {op : HostOp} (h : hostAccess op s = .next t) :
    t.window = s.window ∨
    (s.busy = false ∧ t.busy = true ∧ t.window = some { cmd := t.opl, geom := t.geom } ∧ ∃ w, op = .regWrite 1#6 w) ∨
    (s.busy = false ∧ t.window = none ∧ op = .regRead 2#6) := by
  rcases hostAccess_cases op s t h with
    ⟨i, rfl, rfl⟩ | ⟨i, v, rfl, hw⟩ | ⟨a, d, -, -, rfl⟩ | ⟨a, v, -, -, ⟨-, rfl⟩ | ⟨-, rfl⟩⟩ | ⟨-, rfl⟩
  · rw [hostRegRead_eq]
    by_cases hi : i = 2#6 ∧ s.busy = false
    · exact .inr (.inr ⟨hi.2, if_pos hi, by rw [hi.1]⟩)
    · exact .inl (if_neg hi)
  · rcases writePort_cases i v s t hw with ⟨r, -, -, rfl⟩ | rfl | ⟨c, hr, -, rfl⟩ | ⟨-, rfl⟩
    · exact .inl (writeReg_window r v s)
    · exact .inl rfl
    · obtain rfl := (regAt_cmd_iff i).mp hr
      rcases startCommand_window c s with hkeep | ⟨hb, hb', hopen⟩
      · exact .inl hkeep
      · exact .inr (.inl ⟨hb, hb', hopen, v, rfl⟩)
    · exact .inl (illegalCommand_window v s)
  · exact .inl rfl
  · exact .inl rfl
  · exact .inl rfl
  · exact .inl rfl

/-- Settles O37: of the moves a step can be, only a host access and the assertion of reset reach the window. -/
theorem windowChangesOnlyAtAcceptanceStatusReadOrReset : Obligations.WindowChangesOnlyAtAcceptanceStatusReadOrReset := by
  intro s t h
  rcases step_cases s t h with ⟨rest, -, he⟩ | ⟨op, rest, hn, ha⟩ | ⟨-, rest, rfl | rfl⟩ | ⟨rest, hi, rfl⟩ | ⟨rest, -, rfl⟩
  · exact .inl (engineStep_window (s := s.withInputs rest) he)
  · rcases hostAccess_window (s := (s.withInputs rest).clearResponse) ha with
      hkeep | ⟨hb, hb', hopen, w, rfl⟩ | ⟨hb, hend, rfl⟩
    · exact .inl hkeep
    · exact .inr (.inl ⟨hb, hb', hopen, w, rest, hn⟩)
    · exact .inr (.inr (.inl ⟨hb, hend, rest, hn⟩))
  · exact .inl rfl
  · exact .inl rfl
  · exact .inr (.inr (.inr ⟨rfl, rest, hi⟩))
  · exact .inl rfl

/-! ### What the window refuses (70_reset_and_hazards.md R232) -/

/-- A HostMemWrite to an owned byte, as a step. -/
theorem step_memWrite_owned {a : Word} {v : Byte} {rest : List Input} (h : s.hostNext (.memWrite a v) rest)
    (ho : s.writeOwned a.toNat = true) : step s = .refused (.ownedWrite a) :=
  (step_hostNext s _ rest h).trans (if_pos ho)

/-- A HostMemRead of an owned byte, as a step. -/
theorem step_memRead_owned {a : Word} {rest : List Input} (h : s.hostNext (.memRead a) rest)
    (ho : s.readOwned a.toNat = true) : step s = .refused (.ownedRead a) :=
  (step_hostNext s _ rest h).trans (if_pos ho)

/-- Settles O36: a byte of the window's regions is an owned one, and from the invariant a running command's window is its
own, over the geometry the registers hold. -/
theorem openWindowOwnsItsRegions : Obligations.OpenWindowOwnsItsRegions := by
  refine ⟨fun s c a v rest hc => ⟨fun h hin => ?_, fun h hin => ?_⟩, fun s hinv hb => ?_⟩
  · exact step_memWrite_owned h ((writeOwned_iff s _).mpr ⟨c, hc, (usesAt_iff _ _ _).mpr hin⟩)
  · exact step_memRead_owned h ((readOwned_iff s _).mpr ⟨c, hc, (writesAt_iff _ _ _).mpr hin⟩)
  · obtain ⟨-, -, -, hg, -, hw, -⟩ := hinv
    obtain ⟨hgeom, -⟩ := hg hb
    rw [hw hb, hgeom]
    rfl

/-! ### Only the window refuses -/

/-- In no state does an engine step refuse: it runs a row opcode only where a row is under way (40_defilter.md R108, R109). -/
theorem engineStep_ne_refused (s : State) (q : Refusal) : engineStep s ≠ .refused q := by
  cases hes : s.es with
  | idle => simp [engineStep_idle hes]
  | dfHdr r =>
    simp only [engineStep, hes, fetchRow]
    rcases decode_ft_cases (s.bufByte (s.geom.ftypeAddr r)) with ⟨f, -, hd⟩ | ⟨-, hd⟩
    · simp only [hd, exec_filter_dfHdr f s r hes]
      split <;> simp
    · simp only [hd]
      split <;> simp
  | dfByte r col =>
    simp only [engineStep, hes, exec_filter_dfByte s.ft s r col hes]
    rcases reconstructByte_cases s.ft.pred r col s with ⟨-, he⟩ | ⟨-, he⟩ | ⟨-, -, he⟩ <;> simp [he]
  | flByte i k =>
    simp only [engineStep, hes]
    rcases flipByte_cases i k s with ⟨-, he⟩ | ⟨-, he⟩ | ⟨-, -, he⟩ <;> simp [he]

theorem engineTurn_ne_refused (s : State) (q : Refusal) : engineTurn s ≠ .refused q := by
  unfold engineTurn
  split
  · simp
  · exact engineStep_ne_refused s q

/-- All that a refused host access can be. -/
theorem hostAccess_refused_cases {op : HostOp} {q : Refusal} (h : hostAccess op s = .refused q) :
    (∃ a v, op = .memWrite a v ∧ s.writeOwned a.toNat = true ∧ q = .ownedWrite a) ∨
    (∃ a, op = .memRead a ∧ s.readOwned a.toNat = true ∧ q = .ownedRead a) := by
  cases op with
  | regRead i => cases h
  | regWrite i v =>
    obtain ⟨t, ht⟩ := writePort_total i v s
    cases ht.symm.trans h
  | memRead a =>
    cases ho : s.readOwned a.toNat with
    | true => exact .inr ⟨a, rfl, ho, (Host.Outcome.refused.inj ((if_pos ho).symm.trans h)).symm⟩
    | false => cases (hostMemRead_not_owned ho).symm.trans h
  | memWrite a v =>
    cases ho : s.writeOwned a.toNat with
    | true => exact .inl ⟨a, v, rfl, ho, (Host.Outcome.refused.inj ((if_pos ho).symm.trans h)).symm⟩
    | false => cases (hostMemWrite_not_owned ho v).symm.trans h
  | irqSample => cases h

/-- A step that is refused is a host access that is refused, with reset released. -/
theorem hostAccess_refused_of_step {q : Refusal} (h : step s = .refused q) :
    ∃ op rest, s.hostNext op rest ∧ hostAccess op (s.withInputs rest).clearResponse = .refused q := by
  cases hi : s.inputs with
  | nil => exact absurd ((step_of_nil hi).symm.trans h) (engineTurn_ne_refused s q)
  | cons x rest =>
    cases x with
    | engine => exact absurd ((step_of_engine hi).symm.trans h) (engineTurn_ne_refused _ q)
    | host op =>
      cases hr : s.inReset with
      | true => cases ((step_of_host hi).trans (hostTurn_inReset (s := s.withInputs rest) op hr)).symm.trans h
      | false => exact ⟨op, rest, ⟨hr, hi⟩, (step_hostNext s op rest ⟨hr, hi⟩).symm.trans h⟩
    | resetAssert => cases (step_of_resetAssert hi).symm.trans h
    | resetRelease => cases (step_of_resetRelease hi).symm.trans h

/-- Settles O46: a refused step is a refused host access, and those are the accesses to owned bytes. -/
theorem stepRefusesOnlyOwnedAccesses : Obligations.StepRefusesOnlyOwnedAccesses := by
  intro s q h
  obtain ⟨op, rest, hn, ha⟩ := hostAccess_refused_of_step h
  rcases hostAccess_refused_cases ha with ⟨a, v, rfl, ho, rfl⟩ | ⟨a, rfl, ho, rfl⟩
  · exact .inl ⟨a, v, rest, hn, ho, rfl⟩
  · exact .inr ⟨a, rest, hn, ho, rfl⟩

end Sys2Proof.Machine
end
